-- ==== Sys2Proof/Word.lean ====
section
/-! DEFINITION. The widths of FSYNC (00_scope.md R11): bytes, register words, register offsets, CAN identifiers, the
64-byte buffers and the 8-byte CAN payload. -/

namespace Sys2Proof

/-- One byte of a frame or a buffer. -/
abbrev Byte := BitVec 8

/-- One 32-bit host register (R11). -/
abbrev Word := BitVec 32

/-- A byte offset of the host register space, 0x00..0xFF (R11, R70). -/
abbrev Addr := BitVec 8

/-- A CAN identifier (R11, R101). -/
abbrev CanId := BitVec 29

/-- `LMAX`, the length of ACC, STAGE and MEAS (R11). -/
abbrev lmax : Nat := 64

/-- One of the buffers ACC, STAGE, MEAS: 64 bytes (R11, R32). -/
abbrev Buf := Vector Byte 64

/-- The eight payload bytes of a CAN frame (R100). -/
abbrev CanData := Vector Byte 8

/-- A register offset is word-aligned (R74). -/
def wordAligned (addr : Addr) : Bool := addr.toNat % 4 == 0

end Sys2Proof
end

