-- ==== Sys2Proof/Config.lean ====
section
/-! DEFINITION. The instance parameters of FSYNC (00_scope.md R10, 30_encoding.md R107) and the two reference instances of
92_eei_decisions.md D23. The parameters are an argument of every meaning: they stand in `State.params`, which no step
writes (R263), so a statement about every state is a statement about every instance (R14). -/

namespace Sys2Proof

/-- `XPORT`: the transport bound to the instance (R10, R210). -/
inductive Transport where
  | uart
  | can
  deriving DecidableEq, Repr

/-- One channel descriptor, the fields and widths of R107. -/
structure ChanDesc where
  /-- 1 if the channel is supported -/
  valid : Bool
  /-- byte offset of the field in MEAS, a 6-bit number -/
  off : Fin 64
  /-- field length in bytes, a 3-bit number; legal when 1..4 -/
  n : Fin 8
  /-- 1 = big-endian -/
  be : Bool
  /-- 1 = sign-extended to 32 bits -/
  sgn : Bool
  deriving DecidableEq, Repr

/-- A descriptor of an unsupported channel; its other fields are not read (R107). -/
def ChanDesc.unsupported : ChanDesc := ⟨false, 0, 0, false, false⟩

/-- The instance parameters (R10), with the two that no rule reads (R83, 93_implementation_defined.md U5 and U6). -/
structure Params where
  /-- `XPORT` -/
  xport : Transport
  /-- `L`, data-frame length in bytes (UART only) -/
  len : Nat
  /-- `HDR`, the header sentinel -/
  hdr : Byte
  /-- `QLEN`, UART query-frame length -/
  qlen : Nat
  /-- `FUNC_QUERY` -/
  funcQuery : Byte
  /-- `QPAD` -/
  qpad : Byte
  /-- `CHDESC[0..15]` -/
  chdesc : Vector ChanDesc 16
  /-- `CLEAR_ON_MALFORMED` -/
  clearOnMalformed : Bool
  /-- `FSYNC_BASE`, which no rule reads (R83) -/
  fsyncBase : Nat
  /-- the platform's real period of a TICK, which no rule reads (U6) -/
  tickPeriod : Nat
  deriving DecidableEq, Repr

/-- The REF16 channel table (D23). -/
def ref16Channels : Vector ChanDesc 16 :=
  #v[⟨true, 7, 3, false, false⟩, ⟨true, 10, 1, false, false⟩, ⟨true, 11, 2, false, false⟩,
     ⟨true, 3, 4, false, false⟩, ⟨true, 2, 1, false, false⟩,
     .unsupported, .unsupported, .unsupported, .unsupported, .unsupported, .unsupported,
     .unsupported, .unsupported, .unsupported, .unsupported, .unsupported]

/-- The reference instance REF16 (D23). D23 gives no `FSYNC_BASE` and no TICK period, R83 and U6 leave them to the platform:
the values 0 and 1 (U6's nominal 1 ms) are the model's choice (DESIGN CHOICE, log entry 15), and no rule reads them. -/
def ref16 : Params where
  xport := .uart
  len := 16
  hdr := 0x57
  qlen := 8
  funcQuery := 0x10
  qpad := 0xFF
  chdesc := ref16Channels
  clearOnMalformed := false
  fsyncBase := 0
  tickPeriod := 1

/-- The REFCAN channel table (D23). -/
def refCanChannels : Vector ChanDesc 16 :=
  #v[⟨true, 0, 2, true, false⟩, ⟨true, 2, 2, true, false⟩, ⟨true, 4, 2, true, true⟩,
     ⟨true, 6, 2, true, false⟩, ⟨true, 0, 4, true, false⟩,
     .unsupported, .unsupported, .unsupported, .unsupported, .unsupported, .unsupported,
     .unsupported, .unsupported, .unsupported, .unsupported, .unsupported]

/-- The reference instance REFCAN (D23). D23 gives no `FSYNC_BASE` and no TICK period, R83 and U6 leave them to the platform:
the values 0 and 1 (U6's nominal 1 ms) are the model's choice (DESIGN CHOICE, log entry 15), and no rule reads them. -/
def refCan : Params where
  xport := .can
  len := 16
  hdr := 0x57
  qlen := 8
  funcQuery := 0x10
  qpad := 0xFF
  chdesc := refCanChannels
  clearOnMalformed := false
  fsyncBase := 0
  tickPeriod := 1

end Sys2Proof
end

