-- ==== Sys2Proof/Syntax.lean ====
section
/-! DEFINITION. FSYNC's instructions (30_encoding.md R90): one constructor per row of spec/opcode_table.json. A write to
CMD is a command and has the command's constructor; bits a command ignores (R94, R95) are not operands. -/

namespace Sys2Proof

/-- The host commands and the input events (R90, R91, R93). -/
inductive Instr where
  /-- NOP, OP 0x0 (R211) -/
  | nop
  /-- INIT, OP 0x1 (R170) -/
  | init
  /-- FETCH, OP 0x2 (R171) -/
  | fetch
  /-- GET, OP 0x3, with CHAN = w[7:4] (R191) -/
  | get (chan : BitVec 4)
  /-- reserved OP 0x4..0x7, with the two OP bits the row leaves free (R213) -/
  | reservedLow (op : BitVec 2)
  /-- reserved OP 0x8..0xF, with the three OP bits the row leaves free (R213) -/
  | reservedHigh (op : BitVec 3)
  /-- RESET (R260) -/
  | reset
  /-- REG_WRITE(addr, v) (R215) -/
  | regWrite (addr : Addr) (v : Word)
  /-- REG_READ(addr) (R214) -/
  | regRead (addr : Addr)
  /-- RX_BYTE(b) (R131) -/
  | rxByte (b : Byte)
  /-- CAN_RX(ide, rtr, id, dlc, data) (R100, R152) -/
  | canRx (ide rtr : Bool) (id : CanId) (dlc : BitVec 4) (data : CanData)
  /-- TICK (R180) -/
  | tick
  /-- TX_DONE(ok) (R175) -/
  | txDone (ok : Bool)
  /-- INIT_DONE(ok) (R176) -/
  | initDone (ok : Bool)
  deriving DecidableEq, Repr

end Sys2Proof
end

