-- ==== Sys2Proof/WellFormed.lean ====
section
/-! DEFINITION. Which terms of `Instr` are the spelling of an event: a register access is word-aligned (20_memory.md R74),
and a REG_WRITE to CMD is spelled as the command it is (44_host_interface.md R212). -/

namespace Sys2Proof

/-- The offset of CMD (10_state.md R45). -/
def cmdOffset : Addr := 0x0C

/-- The term is how the decoder spells an event. -/
def Instr.wellFormed : Instr → Bool
  | .regWrite addr _ => wordAligned addr && addr != cmdOffset
  | .regRead addr => wordAligned addr
  | .nop | .init | .fetch | .get _ | .reservedLow _ | .reservedHigh _ | .reset
  | .rxByte _ | .canRx _ _ _ _ _ | .tick | .txDone _ | .initDone _ => true

end Sys2Proof
end

