-- ==== Sys2Proof/Decode.lean ====
section
/-! DEFINITION. From an input event at a port to an instruction, and back (30_encoding.md R91 to R95, R105, R106). Events
are matched by kind, not by bits (R91); a write to CMD is decoded by its OP field. Total: an event is an instruction or is
rejected by name. -/

namespace Sys2Proof

/-- One transaction at an input port, with the payloads of R91. A host access also says how many bytes wide it is, so that
the accesses R74 refuses can be asked for; `v` is the value on the 32-bit data bus. -/
inductive InEvent where
  | reset
  | regWrite (width : Nat) (addr : Addr) (v : Word)
  | regRead (width : Nat) (addr : Addr)
  | rxByte (b : Byte)
  | canRx (ide rtr : Bool) (id : CanId) (dlc : BitVec 4) (data : CanData)
  | tick
  | txDone (ok : Bool)
  | initDone (ok : Bool)
  deriving DecidableEq, Repr

/-- Why an event is no instruction (R74). -/
inductive Reject where
  /-- a host access that is not 32 bits wide -/
  | accessWidth
  /-- a host access at an offset that is not a multiple of 4 -/
  | misaligned
  deriving DecidableEq, Repr

/-- What the decoder answers. -/
inductive Decoded where
  | instr (i : Instr)
  | rejected (r : Reject)
  deriving DecidableEq, Repr

/-- `OP = w[3:0]` (R92). -/
def cmdOp (w : Word) : BitVec 4 := w.extractLsb' 0 4

/-- `CHAN = w[7:4]` (R92). -/
def cmdChan (w : Word) : BitVec 4 := w.extractLsb' 4 4

/-- The command a word written to CMD is, by its OP field (R93, R105). -/
def decodeCommand (w : Word) : Instr :=
  match (cmdOp w).toNat with
  | 0 => .nop
  | 1 => .init
  | 2 => .fetch
  | 3 => .get (cmdChan w)
  | op => if op < 8 then .reservedLow (w.extractLsb' 0 2) else .reservedHigh (w.extractLsb' 0 3)

/-- The host access is one FSYNC defines (R74); `i` is what it then is. -/
def decodeAccess (width : Nat) (addr : Addr) (i : Instr) : Decoded :=
  if width ≠ 4 then .rejected .accessWidth
  else if wordAligned addr then .instr i
  else .rejected .misaligned

/-- The instruction an input event is (R91, R106). -/
def decode : InEvent → Decoded
  | .reset => .instr .reset
  | .regWrite width addr v =>
      decodeAccess width addr (if addr = cmdOffset then decodeCommand v else .regWrite addr v)
  | .regRead width addr => decodeAccess width addr (.regRead addr)
  | .rxByte b => .instr (.rxByte b)
  | .canRx ide rtr id dlc data => .instr (.canRx ide rtr id dlc data)
  | .tick => .instr .tick
  | .txDone ok => .instr (.txDone ok)
  | .initDone ok => .instr (.initDone ok)

/-- A command word: CHAN in bits 7:4, OP in bits 3:0, and zeros in the bits that are ignored (R92). -/
def commandWord (chan op : BitVec 4) : Word := (0 : BitVec 24) ++ chan ++ op

/-- The write of a word to CMD (R212). -/
def cmdWrite (w : Word) : InEvent := .regWrite 4 cmdOffset w

/-- The event an instruction is the decoding of, with every ignored bit zero. -/
def encode : Instr → InEvent
  | .nop => cmdWrite (commandWord 0 0x0)
  | .init => cmdWrite (commandWord 0 0x1)
  | .fetch => cmdWrite (commandWord 0 0x2)
  | .get chan => cmdWrite (commandWord chan 0x3)
  | .reservedLow op => cmdWrite (commandWord 0 ((1 : BitVec 2) ++ op))
  | .reservedHigh op => cmdWrite (commandWord 0 ((1 : BitVec 1) ++ op))
  | .reset => .reset
  | .regWrite addr v => .regWrite 4 addr v
  | .regRead addr => .regRead 4 addr
  | .rxByte b => .rxByte b
  | .canRx ide rtr id dlc data => .canRx ide rtr id dlc data
  | .tick => .tick
  | .txDone ok => .txDone ok
  | .initDone ok => .initDone ok

/-- The event by which a word of the opcode table reaches FSYNC: its write to CMD. The table's words are 32-bit command
words; the event rows have no bits (log entry 8). -/
def tableWordEvent (nbits w : Nat) : InEvent := cmdWrite (BitVec.ofNat 32 (w % 2 ^ nbits))

/-- The instruction the decoder reads from a word of the opcode table. -/
def decodeTableWord (nbits w : Nat) : Option Instr :=
  match decode (tableWordEvent nbits w) with
  | .instr i => some i
  | .rejected _ => none

end Sys2Proof
end

