-- ==== Sys2Proof/Machine/State.lean ====
section
/-! DEFINITION. The whole state of FSYNC (10_state.md R32) as plain data, with the instance parameters and the event
machine's boundary, and the reset state of every instance (70_reset_and_hazards.md R260, R261). -/

namespace Sys2Proof.Machine

/-- `STATE`, the orchestrator state (R39). -/
inductive OrchState where
  | idle
  | initing
  | sending
  | waiting
  deriving DecidableEq, Repr

/-- `LIFE`, the device lifecycle (R40); the code 3 is never held (93_implementation_defined.md U17). -/
inductive Life where
  | uninit
  | ready
  | dead
  deriving DecidableEq, Repr

/-- A result code of CRES or GRES (60_exceptions.md R230); the codes 7..15 are never held (U17). -/
inductive ResultCode where
  | none
  | ok
  | noData
  | malformedFrame
  | unsupportedChannel
  | transportUnavailable
  | sendFailure
  deriving DecidableEq, Repr

/-- `MODE` (R32, R46). -/
inductive Mode where
  | active
  | query
  deriving DecidableEq, Repr

/-- An output transaction (30_encoding.md R96). -/
inductive OutTx where
  /-- one UART query frame, byte 0 first -/
  | txUart (q : List Byte)
  /-- one extended CAN data frame -/
  | txCan (id : CanId) (dlc : BitVec 4) (data : CanData)
  /-- bring up the bound transport -/
  | initReq
  deriving DecidableEq, Repr

/-- FSYNC never faults: "the model enters an explicit fault state. No entry uses it" (93_implementation_defined.md, U
treatments; 60_exceptions.md R233). The type has no constructor, so no definition can raise one. -/
inductive Fault : Type
  deriving DecidableEq, Repr

/-- Why there is no next state. Each is safe: nothing is claimed of a step that is refused. -/
inductive Refusal where
  /-- an instruction without a meaning; raised by no arm of `exec`; safe -/
  | notModelled (mnemonic : String)
  /-- raised by every meaning when the instance breaks the legal values (00_scope.md R13, U7); safe -/
  | illegalInstance
  /-- raised by `step` for a host access that is not 32 bits wide (20_memory.md R74, U8); safe -/
  | accessWidth
  /-- raised by `step` and by the meanings of REG_READ and REG_WRITE for an offset that is not a multiple of 4 (R74, U8); safe -/
  | misalignedAccess
  /-- raised by `step` when no input event is left: a step takes exactly one (00_scope.md R20); safe -/
  | noEvent
  deriving DecidableEq, Repr

/-- The state: the elements of R32, then what R32 does not count as state. -/
structure State where
  /-- `ACC[0..63]` -/
  acc : Buf
  /-- `IDX` -/
  idx : BitVec 6
  /-- `STAGE[0..63]` -/
  stage : Buf
  /-- `STAGE_CANID` -/
  stageCanId : CanId
  /-- `CAN_PEND` -/
  canPend : Bool
  /-- `MEAS[0..63]` -/
  meas : Buf
  /-- `MEAS_CANID` -/
  measCanId : CanId
  /-- `GETVAL` -/
  getval : Word
  /-- `TCNT` -/
  tcnt : Word
  /-- `STATE` -/
  state : OrchState
  /-- `LIFE` -/
  life : Life
  /-- `CRES` -/
  cres : ResultCode
  /-- `GRES` -/
  gres : ResultCode
  /-- `CMDERR` -/
  cmderr : Bool
  /-- `MODE` -/
  mode : Mode
  /-- `DEV_ID` -/
  devId : Byte
  /-- `HOST_ID` -/
  hostId : Byte
  /-- `DATA_ID` -/
  dataId : Byte
  /-- `PRIO` -/
  prio : BitVec 5
  /-- `TIMEOUT` -/
  timeout : Word
  /-- the instance parameters (R10), written by no step (R263) -/
  params : Params
  /-- the input events still to come, oldest first (R20, R21) -/
  inbox : List InEvent
  /-- the output transactions emitted so far, oldest first (R96) -/
  outputs : List OutTx
  /-- the values REG_READ has returned so far, oldest first (R214) -/
  readReturns : List Word
  deriving DecidableEq, Repr

/-- The reset state of an instance (R32, R260), with nothing at its ports yet. -/
def State.resetOf (p : Params) : State where
  acc := Vector.replicate 64 0
  idx := 0
  stage := Vector.replicate 64 0
  stageCanId := 0
  canPend := false
  meas := Vector.replicate 64 0
  measCanId := 0
  getval := 0
  tcnt := 0
  state := .idle
  life := .uninit
  cres := .none
  gres := .none
  cmderr := false
  mode := .active
  devId := 0
  hostId := 0
  dataId := 0
  prio := 0x18
  timeout := 0
  params := p
  inbox := []
  outputs := []
  readReturns := []

/-- The machine right after reset. DESIGN CHOICE (log entry 1): of the instances a reset state can have, the reference
instance REF16. Statements about reset are made for `State.resetOf p`, every `p`. -/
def State.reset : State := State.resetOf ref16

end Sys2Proof.Machine
end

