-- ==== Sys2Proof/Machine/Flags.lean ====
section
/-! DEFINITION. FSYNC's flags: the fields of STATUS (10_state.md R50, R59), the arrival test behind PEND
(43_orchestrator.md R181), CMDERR (R42), the configuration lock (R44), and the posting of result codes (60_exceptions.md
R231), which is what FSYNC has in place of taking an exception. -/

namespace Sys2Proof.Machine

/-- Byte `i` of a buffer (00_scope.md R16). -/
def byteAt (b : Buf) (i : Nat) : Byte := b.getD i 0

/-- `arrived()` (R181): the header byte is staged (UART), or a CAN frame is pending. -/
def arrived (s : State) : Bool :=
  match s.params.xport with
  | .uart => byteAt s.stage 0 == s.params.hdr
  | .can => s.canPend

/-- The code of `STATE` (R39). -/
def OrchState.code : OrchState → BitVec 2
  | .idle => 0
  | .initing => 1
  | .sending => 2
  | .waiting => 3

/-- The code of `LIFE` (R40). -/
def Life.code : Life → BitVec 2
  | .uninit => 0
  | .ready => 1
  | .dead => 2

/-- The number of a result code (R230). -/
def ResultCode.code : ResultCode → BitVec 4
  | .none => 0
  | .ok => 1
  | .noData => 2
  | .malformedFrame => 3
  | .unsupportedChannel => 4
  | .transportUnavailable => 5
  | .sendFailure => 6

/-- `CTRL.MODE` (R46). -/
def Mode.bit : Mode → BitVec 1
  | .active => 0
  | .query => 1

/-- `STATUS.XPORT` (R50). -/
def xportBit : Transport → BitVec 1
  | .uart => 0
  | .can => 1

/-- The STATUS word: {0, XPORT, CMDERR, PEND, GRES, CRES, LIFE, STATE} (R50). -/
def statusWord (s : State) : Word :=
  (0 : BitVec 17) ++ xportBit s.params.xport ++ BitVec.ofBool s.cmderr ++ BitVec.ofBool (arrived s)
    ++ s.gres.code ++ s.cres.code ++ s.life.code ++ s.state.code

/-- CTRL, DEVCFG and TIMEOUT may be written (R44, R215). -/
def unlocked (s : State) : Bool := s.life == .uninit && s.state == .idle

/-- The last write to CMD was accepted (`false`) or dropped (`true`) (R42). -/
def setCmderr (dropped : Bool) (s : State) : State := { s with cmderr := dropped }

/-- `raise E`, and every other end of an INIT or FETCH: the code goes into CRES and STATE to (or stays) IDLE; nothing is
saved and control goes nowhere (R231, R238). -/
def postCommandResult (r : ResultCode) (s : State) : State := { s with cres := r, state := .idle }

/-- The result of a GET goes into GRES (R231). -/
def postGetResult (r : ResultCode) (s : State) : State := { s with gres := r }

end Sys2Proof.Machine
end

