-- ==== Sys2Proof/Machine/Operands.lean ====
section
/-! DEFINITION. What the operands of FSYNC's instructions name: the field a channel selects (43_orchestrator.md R190) and
the register an offset selects (10_state.md R45 to R58). -/

namespace Sys2Proof.Machine

/-- Little-endian value of a byte sequence: the first byte is the least significant. -/
def leValue : List Byte → Nat
  | [] => 0
  | b :: bs => b.toNat + 256 * leValue bs

/-- The `n` bytes of a descriptor's field in buffer order (R190). -/
def fieldBytes (b : Buf) (d : ChanDesc) : List Byte :=
  (List.range d.n.val).map fun k => byteAt b (d.off.val + k)

/-- `raw` of R190. -/
def fieldRaw (b : Buf) (d : ChanDesc) : Nat :=
  leValue (if d.be then (fieldBytes b d).reverse else fieldBytes b d)

/-- `field(BUF, d)` (R190). -/
def field (b : Buf) (d : ChanDesc) : Word :=
  if d.sgn && d.n.val < 4 then (BitVec.ofNat (8 * d.n.val) (fieldRaw b d)).signExtend 32
  else BitVec.ofNat 32 (fieldRaw b d)

/-- Word `k` of a buffer's window, byte 4k in bits 7:0 (R57, R58, R71). -/
def windowWord (b : Buf) (k : Nat) : Word :=
  byteAt b (4 * k + 3) ++ byteAt b (4 * k + 2) ++ byteAt b (4 * k + 1) ++ byteAt b (4 * k)

/-- CTRL (R46). -/
def ctrlWord (s : State) : Word := (0 : BitVec 31) ++ s.mode.bit

/-- DEVCFG (R47). -/
def devcfgWord (s : State) : Word := (0 : BitVec 3) ++ s.prio ++ s.dataId ++ s.hostId ++ s.devId

/-- SYNC (R52). -/
def syncWord (s : State) : Word := (0 : BitVec 26) ++ s.idx

/-- PARAM (R54). -/
def paramWord (p : Params) : Word :=
  match p.xport with
  | .uart => p.funcQuery ++ BitVec.ofNat 8 p.qlen ++ p.hdr ++ BitVec.ofNat 8 p.len
  | .can => 8

/-- A CAN identifier register (R55, R56). -/
def canIdWord (id : CanId) : Word := (0 : BitVec 3) ++ id

/-- The value a word-aligned offset reads as: the map of R45, and 0 for CMD and for what is unmapped (R73, R214). -/
def readReg (addr : Addr) (s : State) : Word :=
  match addr.toNat with
  | 0x00 => ctrlWord s
  | 0x04 => devcfgWord s
  | 0x08 => s.timeout
  | 0x0C => 0
  | 0x10 => statusWord s
  | 0x14 => s.getval
  | 0x18 => syncWord s
  | 0x1C => s.tcnt
  | 0x20 => paramWord s.params
  | 0x24 => canIdWord s.stageCanId
  | 0x28 => canIdWord s.measCanId
  | a =>
    if 0x40 ≤ a ∧ a < 0x80 then windowWord s.stage ((a - 0x40) / 4)
    else if 0x80 ≤ a ∧ a < 0xC0 then windowWord s.meas ((a - 0x80) / 4)
    else 0

end Sys2Proof.Machine
end

