-- ==== Sys2Proof/Machine/Ops.lean ====
section
/-! DEFINITION. The shared operations: buffers, the checksum validator (40_checksum.md), frames and CAN identifiers
(30_encoding.md), outputs, completion and settle (43_orchestrator.md R182 to R185), and the shape of every step: the
event's rule, then settle (00_scope.md R20). -/

namespace Sys2Proof.Machine

/-! ### Buffers (R16) -/

/-- `BUF <- 0` (R16, 92_eei_decisions.md D6). -/
def zeroBuf : Buf := Vector.replicate 64 0

/-- `BUF[i] <- v`. -/
def putByte (b : Buf) (i : Nat) (v : Byte) : Buf := b.setIfInBounds i v

/-- `dst[0..n-1] <- src[0..n-1]`; bytes from `n` on keep what `dst` held. -/
def copyFirst : Nat → Buf → Buf → Buf
  | 0, _, dst => dst
  | n + 1, src, dst => putByte (copyFirst n src dst) n (byteAt src n)

/-- The eight payload bytes of a CAN frame into `dst[0..7]` (R152). -/
def copyPayload (data : CanData) (dst : Buf) : Buf :=
  (List.range 8).foldl (fun b j => putByte b j (data.getD j 0)) dst

/-! ### Instance parameters -/

/-- `FLEN`, the buffer length in use (R12). -/
def frameLen (p : Params) : Nat :=
  match p.xport with
  | .uart => p.len
  | .can => 8

/-- A descriptor is not valid, or lies inside the frame (R107). -/
def legalDesc (flen : Nat) (d : ChanDesc) : Bool :=
  !d.valid || (1 ≤ d.n.val && d.n.val ≤ 4 && d.off.val + d.n.val ≤ flen)

/-- The instance is one FSYNC has (R10, R13, R107). -/
def legalParams (p : Params) : Bool :=
  (2 ≤ p.len && p.len ≤ 64) && p.hdr != 0 && (4 ≤ p.qlen && p.qlen ≤ 64)
    && p.chdesc.toList.all (legalDesc (frameLen p))

/-! ### The checksum validator -/

/-- Sum of a byte sequence, on unbounded naturals (R15). -/
def byteSum (bs : List Byte) : Nat := (bs.map (·.toNat)).sum

/-- `checksum(B, n)` (R120): the sum of `B[0..n-2]`, modulo 256. -/
def checksum (bs : List Byte) (n : Nat) : Byte := BitVec.ofNat 8 (byteSum (bs.take (n - 1)))

/-- `validate(B, n)` (R121). -/
def validate (bs : List Byte) (n : Nat) : Bool := checksum bs n == bs.getD (n - 1) 0

/-! ### Frames and identifiers -/

/-- The bytes of a query frame before its checksum (R98, R173). -/
def queryBody (s : State) : List Byte :=
  [s.params.hdr, s.params.funcQuery, s.devId] ++ List.replicate (s.params.qlen - 4) s.params.qpad

/-- `query_frame()` (R173): the checksum is taken over a frame whose last byte it does not read. -/
def queryFrame (s : State) : List Byte :=
  queryBody s ++ [checksum (queryBody s ++ [0]) s.params.qlen]

/-- `canid(p, d, dst, org)` (R102). -/
def canid (p d dst org : Nat) : Nat :=
  ((p &&& 0x1F) <<< 24) ||| ((d &&& 0xFF) <<< 16) ||| ((dst &&& 0xFF) <<< 8) ||| (org &&& 0xFF)

/-- `REQ_ID` (R103): destination the device, origin the host. -/
def reqId (s : State) : CanId :=
  BitVec.ofNat 29 (canid s.prio.toNat s.dataId.toNat s.devId.toNat s.hostId.toNat)

/-- `ACC_KEY` (R103): destination the host, origin the device. -/
def accKey (s : State) : CanId :=
  BitVec.ofNat 29 (canid 0 s.dataId.toNat s.hostId.toNat s.devId.toNat)

/-- `accept(ide, rtr, id, dlc)` (R151). -/
def accepts (ide rtr : Bool) (id : CanId) (dlc : BitVec 4) (s : State) : Bool :=
  ide && !rtr && dlc == 8 && id.extractLsb' 0 24 == (accKey s).extractLsb' 0 24

/-! ### Outputs -/

/-- `emit OUT(...)` (R16, R96). -/
def emit (o : OutTx) (s : State) : State := { s with outputs := s.outputs ++ [o] }

/-- The request of a query-mode FETCH over the bound transport (R155, R173, R174, R210). -/
def request (s : State) : OutTx :=
  match s.params.xport with
  | .uart => .txUart (queryFrame s)
  | .can => .txCan (reqId s) 8 (Vector.replicate 8 0)

/-! ### The wait, completion and settle -/

/-- A FETCH enters WAITING with the counter at 0 (R172, R175). -/
def enterWaiting (s : State) : State := { s with tcnt := 0, state := .waiting }

/-- `STAGE <- 0` when a malformed frame is consumed (R184, 92_eei_decisions.md D18). -/
def dropMalformed (s : State) : State :=
  if s.params.clearOnMalformed then { s with stage := zeroBuf } else s

/-- `complete()` for UART (R184). -/
def completeUart (s : State) : State :=
  if validate s.stage.toList s.params.len then
    postCommandResult .ok { s with meas := copyFirst s.params.len s.stage s.meas, stage := zeroBuf }
  else
    postCommandResult .malformedFrame (dropMalformed s)

/-- `complete()` for CAN (R185). -/
def completeCan (s : State) : State :=
  postCommandResult .ok { s with
    meas := copyFirst 8 s.stage s.meas
    measCanId := s.stageCanId
    stage := zeroBuf
    stageCanId := 0
    canPend := false }

/-- `complete()` for the bound transport (R210). -/
def complete (s : State) : State :=
  match s.params.xport with
  | .uart => completeUart s
  | .can => completeCan s

/-- Settle (R182): arrival is tested before the timeout. -/
def settle (s : State) : State :=
  if s.state = .waiting then
    if arrived s then complete s
    else if s.timeout ≤ s.tcnt then postCommandResult .noData s
    else s
  else s

/-! ### The shape of a step -/

/-- One event of a legal instance: its rule, then settle once (R13, R20). -/
def runEvent (rule : State → State) (s : State) : Host.Outcome State Fault Refusal :=
  if legalParams s.params then .next (settle (rule s)) else .refused .illegalInstance

/-- A register access: as any event, at a word-aligned offset; refused at any other (R74). -/
def runAccess (addr : Addr) (rule : State → State) (s : State) : Host.Outcome State Fault Refusal :=
  if legalParams s.params then
    if wordAligned addr then .next (settle (rule s)) else .refused .misalignedAccess
  else .refused .illegalInstance

/-- The named refusal of an event that is no instruction (R74). -/
def refusalOf : Reject → Refusal
  | .accessWidth => .accessWidth
  | .misaligned => .misalignedAccess

/-- Take the oldest input event, if there is one (R20). -/
def takeEvent (s : State) : Option (InEvent × State) :=
  match s.inbox with
  | [] => none
  | e :: rest => some (e, { s with inbox := rest })

/-- Put an event where the next step takes it. -/
def putEvent (e : InEvent) (s : State) : State := { s with inbox := e :: s.inbox }

end Sys2Proof.Machine
end

