-- ==== Sys2Proof/Machine/Commands.lean ====
section
/-! DEFINITION. The commands a host writes to CMD: NOP, INIT, FETCH, GET and the reserved codes (43_orchestrator.md,
44_host_interface.md). -/

namespace Sys2Proof.Machine

/-! ### NOP (R211) -/

/-- The rule of NOP. -/
def nopRule (s : State) : State := setCmderr false s

/-- NOP (R211). -/
def execNop (s : State) : Host.Outcome State Fault Refusal := runEvent nopRule s

/-! ### INIT (R170) -/

/-- The rule of INIT. -/
def initRule (s : State) : State :=
  if s.life ≠ .uninit ∨ s.state ≠ .idle then setCmderr true s
  else emit .initReq { s with cmderr := false, cres := .none, state := .initing }

/-- INIT (R170). -/
def execInit (s : State) : Host.Outcome State Fault Refusal := runEvent initRule s

/-! ### FETCH (R171 to R174) -/

/-- An accepted FETCH of a READY device: send the request (query mode) or wait (active mode). -/
def startFetch (s : State) : State :=
  match s.mode with
  | .query => emit (request s) { s with state := .sending }
  | .active => enterWaiting s

/-- The rule of FETCH. -/
def fetchRule (s : State) : State :=
  if s.state ≠ .idle then setCmderr true s
  else if s.life ≠ .ready then postCommandResult .transportUnavailable (setCmderr false s)
  else startFetch { s with cmderr := false, cres := .none }

/-- FETCH (R171). -/
def execFetch (s : State) : Host.Outcome State Fault Refusal := runEvent fetchRule s

/-! ### GET (R190, R191) -/

/-- The descriptor a channel number selects (R107). -/
def chanDesc (chan : BitVec 4) (s : State) : ChanDesc := s.params.chdesc[chan.toNat]'chan.isLt

/-- The rule of GET. -/
def getRule (chan : BitVec 4) (s : State) : State :=
  if s.life ≠ .ready then postGetResult .transportUnavailable (setCmderr false s)
  else if (chanDesc chan s).valid then
    postGetResult .ok { s with cmderr := false, getval := field s.meas (chanDesc chan s) }
  else postGetResult .unsupportedChannel (setCmderr false s)

/-- GET (R191). -/
def execGet (chan : BitVec 4) (s : State) : Host.Outcome State Fault Refusal := runEvent (getRule chan) s

/-! ### Reserved codes (R213) -/

/-- The rule of a reserved command code. -/
def reservedRule (s : State) : State := setCmderr true s

/-- The reserved codes 0x4 to 0x7 (R213). -/
def execReservedLow (_op : BitVec 2) (s : State) : Host.Outcome State Fault Refusal :=
  runEvent reservedRule s

/-- The reserved codes 0x8 to 0xF (R213). -/
def execReservedHigh (_op : BitVec 3) (s : State) : Host.Outcome State Fault Refusal :=
  runEvent reservedRule s

/-! ### A word written to CMD (R212) -/

/-- `command(w)`: the rule the OP field selects (R93, R212). -/
def command (w : Word) (s : State) : State :=
  match (cmdOp w).toNat with
  | 0 => nopRule s
  | 1 => initRule s
  | 2 => fetchRule s
  | 3 => getRule (cmdChan w) s
  | _ => reservedRule s

end Sys2Proof.Machine
end

