-- ==== Sys2Proof/Machine/HostPort.lean ====
section
/-! DEFINITION. RESET (70_reset_and_hazards.md R260) and the host's register accesses (44_host_interface.md R214, R215). -/

namespace Sys2Proof.Machine

/-! ### RESET (R260) -/

/-- Every element of R32 goes to its reset value; the parameters are not state, and events to come and transactions already
emitted are not undone. -/
def resetRule (s : State) : State :=
  { s with
    acc := zeroBuf, idx := 0, stage := zeroBuf, stageCanId := 0, canPend := false
    meas := zeroBuf, measCanId := 0, getval := 0, tcnt := 0
    state := .idle, life := .uninit, cres := .none, gres := .none, cmderr := false
    mode := .active, devId := 0, hostId := 0, dataId := 0, prio := 0x18, timeout := 0 }

/-- RESET (R260). -/
def execReset (s : State) : Host.Outcome State Fault Refusal := runEvent resetRule s

/-! ### REG_READ (R214) -/

/-- The register's value is returned; no element of R32 is written. -/
def regReadRule (addr : Addr) (s : State) : State :=
  { s with readReturns := s.readReturns ++ [readReg addr s] }

/-- REG_READ (R214). -/
def execRegRead (addr : Addr) (s : State) : Host.Outcome State Fault Refusal :=
  runAccess addr (regReadRule addr) s

/-! ### REG_WRITE (R215) -/

/-- `MODE <- v[0]` (R46). -/
def writeCtrl (v : Word) (s : State) : State :=
  { s with mode := if v.getLsbD 0 then .query else .active }

/-- DEV_ID, HOST_ID, DATA_ID and PRIO from their fields of `v` (R47). -/
def writeDevcfg (v : Word) (s : State) : State :=
  { s with
    devId := v.extractLsb' 0 8, hostId := v.extractLsb' 8 8
    dataId := v.extractLsb' 16 8, prio := v.extractLsb' 24 5 }

/-- `TIMEOUT <- v` (R48). -/
def writeTimeout (v : Word) (s : State) : State := { s with timeout := v }

/-- A configuration write: it takes effect only while unlocked (R44). -/
def writeConfig (write : State → State) (s : State) : State := if unlocked s then write s else s

/-- The rule of REG_WRITE: configuration, command, or no effect. -/
def regWriteRule (addr : Addr) (v : Word) (s : State) : State :=
  match addr.toNat with
  | 0x00 => writeConfig (writeCtrl v) s
  | 0x04 => writeConfig (writeDevcfg v) s
  | 0x08 => writeConfig (writeTimeout v) s
  | 0x0C => command v s
  | _ => s

/-- REG_WRITE (R215). -/
def execRegWrite (addr : Addr) (v : Word) (s : State) : Host.Outcome State Fault Refusal :=
  runAccess addr (regWriteRule addr v) s

end Sys2Proof.Machine
end

