-- ==== Sys2Proof/Machine/Receive.lean ====
section
/-! DEFINITION. The producer events: RX_BYTE, the byte-stream synchronizer (41_frame_sync.md), and CAN_RX, the CAN frame
reader (42_can_reader.md). -/

namespace Sys2Proof.Machine

/-! ### RX_BYTE (R130, R131) -/

/-- Step 3 of R131: the frame is complete. -/
def frameReady (acc : Buf) (s : State) : State :=
  { s with stage := copyFirst s.params.len acc s.stage, idx := 0, acc := zeroBuf }

/-- The three steps of R131. The cursor is counted on naturals, since with L = 64 it reaches 64 inside the step. -/
def synchronize (b : Byte) (s : State) : State :=
  let acc := putByte s.acc s.idx.toNat b
  let idx := s.idx.toNat + 1
  if idx = 1 ∧ b ≠ s.params.hdr then { s with idx := 0, acc := zeroBuf }
  else if idx = s.params.len then frameReady acc s
  else { s with idx := BitVec.ofNat 6 idx, acc := acc }

/-- The rule of RX_BYTE: only on a READY UART instance (R130). -/
def rxByteRule (b : Byte) (s : State) : State :=
  if s.params.xport = .uart ∧ s.life = .ready then synchronize b s else s

/-- RX_BYTE (R131). -/
def execRxByte (b : Byte) (s : State) : Host.Outcome State Fault Refusal := runEvent (rxByteRule b) s

/-! ### CAN_RX (R150 to R153) -/

/-- An accepted frame is staged (R152). -/
def stageCanFrame (id : CanId) (data : CanData) (s : State) : State :=
  { s with stage := copyPayload data s.stage, stageCanId := id, canPend := true }

/-- The rule of CAN_RX: only on a READY CAN instance (R150), and only through the filter (R151). -/
def canRxRule (ide rtr : Bool) (id : CanId) (dlc : BitVec 4) (data : CanData) (s : State) : State :=
  if s.params.xport = .can ∧ s.life = .ready ∧ accepts ide rtr id dlc s then stageCanFrame id data s else s

/-- CAN_RX (R152). -/
def execCanRx (ide rtr : Bool) (id : CanId) (dlc : BitVec 4) (data : CanData) (s : State) :
    Host.Outcome State Fault Refusal :=
  runEvent (canRxRule ide rtr id dlc data) s

end Sys2Proof.Machine
end

