-- ==== Sys2Proof/Machine/Transport.lean ====
section
/-! DEFINITION. The clock and the transport's replies: TICK, TX_DONE, INIT_DONE (43_orchestrator.md). -/

namespace Sys2Proof.Machine

/-! ### TICK (R180) -/

/-- The rule of TICK. -/
def tickRule (s : State) : State :=
  if s.state = .waiting ∧ s.tcnt < s.timeout then { s with tcnt := s.tcnt + 1 } else s

/-- TICK (R180). -/
def execTick (s : State) : Host.Outcome State Fault Refusal := runEvent tickRule s

/-! ### TX_DONE (R175, R177) -/

/-- The rule of TX_DONE. -/
def txDoneRule (ok : Bool) (s : State) : State :=
  if s.state ≠ .sending then s
  else if ok then enterWaiting s
  else postCommandResult .sendFailure s

/-- TX_DONE (R175). -/
def execTxDone (ok : Bool) (s : State) : Host.Outcome State Fault Refusal := runEvent (txDoneRule ok) s

/-! ### INIT_DONE (R176, R177) -/

/-- The rule of INIT_DONE. -/
def initDoneRule (ok : Bool) (s : State) : State :=
  if s.state ≠ .initing then s
  else if ok then postCommandResult .ok { s with life := .ready }
  else postCommandResult .transportUnavailable { s with life := .dead }

/-- INIT_DONE (R176). -/
def execInitDone (ok : Bool) (s : State) : Host.Outcome State Fault Refusal := runEvent (initDoneRule ok) s

end Sys2Proof.Machine
end

