-- ==== Sys2Proof/Machine/Dispatch.lean ====
section
/-! DEFINITION. The effect of one instruction: its meaning, one arm per constructor. -/

namespace Sys2Proof.Machine

def exec (i : Instr) (s : State) : Host.Outcome State Fault Refusal :=
  match i with
  -- commands
  | .nop => Sys2Proof.Machine.execNop s
  | .init => Sys2Proof.Machine.execInit s
  | .fetch => Sys2Proof.Machine.execFetch s
  | .get chan => Sys2Proof.Machine.execGet chan s
  | .reservedLow op => Sys2Proof.Machine.execReservedLow op s
  | .reservedHigh op => Sys2Proof.Machine.execReservedHigh op s
  -- events
  | .reset => Sys2Proof.Machine.execReset s
  | .regWrite addr v => Sys2Proof.Machine.execRegWrite addr v s
  | .regRead addr => Sys2Proof.Machine.execRegRead addr s
  | .rxByte b => Sys2Proof.Machine.execRxByte b s
  | .canRx ide rtr id dlc data => Sys2Proof.Machine.execCanRx ide rtr id dlc data s
  | .tick => Sys2Proof.Machine.execTick s
  | .txDone ok => Sys2Proof.Machine.execTxDone ok s
  | .initDone ok => Sys2Proof.Machine.execInitDone ok s

end Sys2Proof.Machine
end

