-- ==== Sys2Proof/Machine/Step.lean ====
section
/-! DEFINITION. One step of FSYNC (00_scope.md R20): take the oldest input event, decode it, run it. -/

namespace Sys2Proof.Machine

/-- One step. The state an event runs in is the state with that event taken out of the inbox. -/
def step (s : State) : Host.Outcome State Fault Refusal :=
  match takeEvent s with
  | none => .refused .noEvent
  | some (e, s') =>
    match decode e with
    | .instr i => exec i s'
    | .rejected r => .refused (refusalOf r)

/-- `s` with a word of the opcode table as the event `step` takes next: its write to CMD (log entry 8). -/
def State.withFetchWord (s : State) (nbits w : Nat) : State := putEvent (tableWordEvent nbits w) s

end Sys2Proof.Machine
end

