-- ==== Sys2Proof/Safety.lean ====
section
/-! DEFINITION. The terms claims are stated in: runs of instructions, frame completions counted along a run, the settled
states (43_orchestrator.md R183) and the invariant of the reachable states. -/

namespace Sys2Proof.Machine

/-- Run instructions in order, stopping at the first that has no next state. -/
def execAll : List Instr → State → Host.Outcome State Fault Refusal
  | [], s => .next s
  | i :: is, s =>
    match exec i s with
    | .next t => execAll is t
    | .fault r => .fault r
    | .refused r => .refused r

/-- The RX_BYTE events that deliver these bytes in order (30_encoding.md R109). -/
def rxBytes (bs : List Byte) : List Instr := bs.map .rxByte

/-- Receiving `b` in `s` completes a frame: the third step of 41_frame_sync.md R131 copies it to STAGE. -/
def completesFrame (b : Byte) (s : State) : Bool :=
  s.params.xport == .uart && s.life == .ready && (s.idx.toNat != 0 || b == s.params.hdr)
    && s.idx.toNat + 1 == s.params.len

/-- How many frames complete while these bytes are received. -/
def completions : List Byte → State → Nat
  | [], _ => 0
  | b :: bs, s =>
    match exec (.rxByte b) s with
    | .next t => (if completesFrame b s then 1 else 0) + completions bs t
    | .fault _ => 0
    | .refused _ => 0

/-- The next state of an outcome, changed by `f`; the other outcomes as they are. -/
def mapNext (f : State → State) : Host.Outcome State Fault Refusal → Host.Outcome State Fault Refusal
  | .next t => .next (f t)
  | .fault r => .fault r
  | .refused r => .refused r

/-- The same state on an instance that differs only in the two parameters no rule reads (R83, U6). -/
def State.onPlatform (base period : Nat) (s : State) : State :=
  { s with params := { s.params with fsyncBase := base, tickPeriod := period } }

/-- What settle leaves (R183): a WAITING machine has no frame and has time left. -/
def State.Settled (s : State) : Prop := s.state = .waiting → arrived s = false ∧ s.tcnt < s.timeout

/-- Offsets that stand in no row of the register map (10_state.md R45). -/
def unmapped (addr : Addr) : Prop := (0x2C ≤ addr.toNat ∧ addr.toNat < 0x40) ∨ 0xC0 ≤ addr.toNat

/-- What every state a run reaches has in common. -/
structure State.Inv (s : State) : Prop where
  /-- the instance is legal (R13) -/
  legal : legalParams s.params = true
  /-- `0 ≤ IDX ≤ FLEN-1` between steps (R33, R134) -/
  idx_lt : s.idx.toNat < frameLen s.params
  /-- what has not been received is 0x00, so `ACC[FLEN..63]` stay 0x00 (R33) -/
  acc_tail : ∀ i, s.idx.toNat ≤ i → byteAt s.acc i = 0
  /-- a frame in progress began with the header (R132, R133) -/
  acc_head : 0 < s.idx.toNat → byteAt s.acc 0 = s.params.hdr
  /-- bytes of STAGE at FLEN and above stay 0x00 (R34) -/
  stage_tail : ∀ i, frameLen s.params ≤ i → byteAt s.stage i = 0
  /-- STAGE is empty when `arrived()` is false (R34) -/
  stage_empty : arrived s = false → s.stage = zeroBuf
  /-- MEAS holds bytes of one frame only -/
  meas_tail : ∀ i, frameLen s.params ≤ i → byteAt s.meas i = 0
  /-- MEAS of a UART instance is empty or a validated frame (R36) -/
  meas_valid : s.params.xport = .uart → s.meas = zeroBuf ∨
    (byteAt s.meas 0 = s.params.hdr ∧ validate s.meas.toList s.params.len = true)
  /-- the CAN elements stay 0 on a UART instance (R35) -/
  uart_no_can : s.params.xport = .uart → s.canPend = false ∧ s.stageCanId = 0 ∧ s.measCanId = 0
  /-- IDX stays 0 on a CAN instance (R33) -/
  can_no_idx : s.params.xport = .can → s.idx = 0
  /-- STAGE_CANID is 0 when STAGE is empty (R35) -/
  no_pend_no_id : s.canPend = false → s.stageCanId = 0
  /-- `TCNT ≤ TIMEOUT` between steps (R38) -/
  tcnt_le : s.tcnt ≤ s.timeout
  /-- settle has run (R183) -/
  settled : s.Settled
  /-- before a successful INIT nothing has been received, measured or counted -/
  not_ready : s.life ≠ .ready →
    s.idx = 0 ∧ s.stage = zeroBuf ∧ s.canPend = false ∧ s.meas = zeroBuf ∧ s.measCanId = 0 ∧ s.tcnt = 0
  /-- INITING only before the first answer (R170, R176) -/
  initing_uninit : s.state = .initing → s.life = .uninit
  /-- SENDING only in query mode on a READY device (R171) -/
  sending_query : s.state = .sending → s.life = .ready ∧ s.mode = .query
  /-- WAITING only on a READY device (R171) -/
  waiting_ready : s.state = .waiting → s.life = .ready
  /-- a DEAD device is idle with TRANSPORT_UNAVAILABLE (R176, R232) -/
  dead_idle : s.life = .dead → s.state = .idle ∧ s.cres = .transportUnavailable
  /-- CRES is NONE while an INIT or FETCH runs (R230, R272) -/
  busy_no_result : s.state ≠ .idle → s.cres = .none
  /-- and is a result once one has ended (R231) -/
  idle_result : s.state = .idle → s.life = .ready → s.cres ≠ .none
  /-- no INIT or FETCH posts UNSUPPORTED_CHANNEL (R230) -/
  cres_code : s.cres ≠ .unsupportedChannel
  /-- a CAN FETCH never returns MALFORMED_FRAME (R185) -/
  can_cres : s.params.xport = .can → s.cres ≠ .malformedFrame
  /-- GET posts OK, UNSUPPORTED_CHANNEL or TRANSPORT_UNAVAILABLE (R191) -/
  gres_code : s.gres = .none ∨ s.gres = .ok ∨ s.gres = .unsupportedChannel ∨ s.gres = .transportUnavailable

end Sys2Proof.Machine
end

