-- ==== Sys2Proof/Certificates/Slice0/Obligations.lean ====
section
/-! DEFINITION. The statements about FSYNC for the provers, each with the rule of spec/ it formalises. Every statement about
an instruction gives its whole next state, so it is also its frame: what is not named is as before. -/

open Sys2Proof Sys2Proof.Machine

/-! ### Encodings (30_encoding.md) -/

/-- The encoding keeps every operand: the decoder reads back what was encoded. -/
def Obligations.DecodeOfEncodeIsTheInstruction : Prop :=
  ∀ i : Instr, i.wellFormed = true → decode (encode i) = .instr i

/-- R94, R95: bits 31:8 never count, and CHAN counts for GET only. -/
def Obligations.CommandIgnoresReservedBitsAndUnusedChan : Prop :=
  ∀ w w' : Word, w.toNat % 16 = w'.toNat % 16 →
    (w.toNat % 16 = 3 → w.toNat / 16 % 16 = w'.toNat / 16 % 16) →
    decodeCommand w = decodeCommand w'

/-- R93: the row of each OP value, in numbers. -/
def Obligations.CommandWordDecodesByItsOpField : Prop :=
  ∀ w : Word,
    (w.toNat % 16 = 0 → decodeCommand w = .nop) ∧
    (w.toNat % 16 = 1 → decodeCommand w = .init) ∧
    (w.toNat % 16 = 2 → decodeCommand w = .fetch) ∧
    (w.toNat % 16 = 3 → decodeCommand w = .get (BitVec.ofNat 4 (w.toNat / 16))) ∧
    (4 ≤ w.toNat % 16 → w.toNat % 16 < 8 → decodeCommand w = .reservedLow (BitVec.ofNat 2 w.toNat)) ∧
    (8 ≤ w.toNat % 16 → decodeCommand w = .reservedHigh (BitVec.ofNat 3 w.toNat))

/-- Words and events written out from the spec's tables (R93, R108, 95_test_vectors.md) decode as they should. -/
def Obligations.SampleEventsDecode : Prop :=
  decode (.regWrite 4 0x0C 0x00000000) = .instr .nop ∧
  decode (.regWrite 4 0x0C 0x00000001) = .instr .init ∧
  decode (.regWrite 4 0x0C 0xABCDEF02) = .instr .fetch ∧
  decode (.regWrite 4 0x0C 0x00000093) = .instr (.get 9) ∧
  decode (.regWrite 4 0x0C 0xFFFFFF04) = .instr (.reservedLow 0) ∧
  decode (.regWrite 4 0x0C 0x0000000F) = .instr (.reservedHigh 7) ∧
  decode (.regWrite 4 0x04 0x18904001) = .instr (.regWrite 0x04 0x18904001) ∧
  decode (.regRead 4 0x10) = .instr (.regRead 0x10) ∧
  decode (.rxByte 0x57) = .instr (.rxByte 0x57) ∧
  decode .tick = .instr .tick

/-- R74: an access of another width or offset is refused, as an event and as an instruction. The refusals' names are the
model's (log entry 6). -/
def Obligations.AccessOfOtherWidthOrOffsetIsRefused : Prop :=
  (∀ (s : State) (rest : List InEvent) (width : Nat) (addr : Addr) (v : Word),
    (s.inbox = .regWrite width addr v :: rest ∨ s.inbox = .regRead width addr :: rest) →
    (width ≠ 4 → step s = .refused .accessWidth) ∧
    (width = 4 → addr.toNat % 4 ≠ 0 → step s = .refused .misalignedAccess)) ∧
  (∀ (s : State) (addr : Addr) (v : Word), legalParams s.params = true → addr.toNat % 4 ≠ 0 →
    exec (.regWrite addr v) s = .refused .misalignedAccess ∧
    exec (.regRead addr) s = .refused .misalignedAccess)

/-! ### Steps and instances (00_scope.md) -/

/-- A step takes the oldest event out of the inbox and runs the instruction it decodes to. -/
def Obligations.StepRunsTheDecodedEvent : Prop :=
  ∀ (s : State) (e : InEvent) (rest : List InEvent) (i : Instr),
    s.inbox = e :: rest → decode e = .instr i → step s = exec i { s with inbox := rest }

/-- The model's choice (log entry 3): with no event there is no step. -/
def Obligations.StepWithoutEventIsRefused : Prop :=
  ∀ s : State, s.inbox = [] → step s = .refused .noEvent

/-- Steps over an inbox run its instructions in order. -/
def Obligations.RunOfStepsIsTheRunOfItsInstructions : Prop :=
  ∀ (is : List Instr) (s : State) (rest : List InEvent),
    (∀ i ∈ is, i.wellFormed = true) → s.inbox = is.map encode ++ rest →
    Sys2Proof.core.run is.length s = execAll is { s with inbox := rest }

/-- R13, with the legal values of R10 and R107 written out: an illegal instance is refused, and no other. That the values a
CAN instance ignores are checked too is the model's reading (log entry 2). -/
def Obligations.IllegalInstanceIsRefused : Prop :=
  ∀ (i : Instr) (s : State),
    exec i s = .refused .illegalInstance ↔
      ¬ (2 ≤ s.params.len ∧ s.params.len ≤ 64 ∧ s.params.hdr ≠ 0 ∧ 4 ≤ s.params.qlen ∧ s.params.qlen ≤ 64 ∧
         ∀ d ∈ s.params.chdesc.toList, d.valid = true →
           1 ≤ d.n.val ∧ d.n.val ≤ 4 ∧
           d.off.val + d.n.val ≤ (if s.params.xport = .uart then s.params.len else 8))

/-- R233: every event of a legal instance has an effect but the accesses R74 refuses. -/
def Obligations.EveryEventHasAnEffectButRefusedAccesses : Prop :=
  ∀ (s : State) (e : InEvent) (rest : List InEvent), legalParams s.params = true → s.inbox = e :: rest →
    (∃ t, step s = .next t) ∨
    (∃ width addr, (e = .regRead width addr ∨ ∃ v, e = .regWrite width addr v) ∧
      (width ≠ 4 ∨ addr.toNat % 4 ≠ 0) ∧
      (step s = .refused .accessWidth ∨ step s = .refused .misalignedAccess))

/-- R263, R20: no instruction writes the parameters or the events still to come. -/
def Obligations.ParametersAndInboxAreNeverWritten : Prop :=
  ∀ (i : Instr) (s t : State), exec i s = .next t → t.params = s.params ∧ t.inbox = s.inbox

/-- R83 and U6: nothing depends on the base address or on the real period of a TICK. -/
def Obligations.NoRuleReadsBaseOrTickPeriod : Prop :=
  ∀ (i : Instr) (s : State) (base period : Nat),
    exec i (s.onPlatform base period) = mapNext (State.onPlatform base period) (exec i s)

/-! ### Commands (43_orchestrator.md, 44_host_interface.md) -/

/-- R211. -/
def Obligations.NopClearsCmderrOnly : Prop :=
  ∀ s : State, legalParams s.params = true → s.Settled →
    exec .nop s = .next { s with cmderr := false } ∧
    (∀ w : Word, w.toNat % 16 = 0 → exec (.regWrite 0x0C w) s = .next { s with cmderr := false })

/-- R213, both rows of the table. -/
def Obligations.ReservedCommandsSetCmderrOnly : Prop :=
  ∀ s : State, legalParams s.params = true → s.Settled →
    (∀ op, exec (.reservedLow op) s = .next { s with cmderr := true }) ∧
    (∀ op, exec (.reservedHigh op) s = .next { s with cmderr := true }) ∧
    (∀ w : Word, 4 ≤ w.toNat % 16 → exec (.regWrite 0x0C w) s = .next { s with cmderr := true })

/-- R170: INIT is accepted, emits INIT_REQ and waits, or is dropped. -/
def Obligations.InitIsAcceptedOrDropped : Prop :=
  ∀ s : State, legalParams s.params = true →
    (s.life = .uninit → s.state = .idle →
      exec .init s = .next { s with
        cmderr := false, cres := .none, state := .initing, outputs := s.outputs ++ [.initReq] }) ∧
    ((s.life ≠ .uninit ∨ s.state ≠ .idle) → s.Settled → exec .init s = .next { s with cmderr := true }) ∧
    (∀ w : Word, w.toNat % 16 = 1 → exec (.regWrite 0x0C w) s = exec .init s)

/-- R171, its four branches, and its command words. -/
def Obligations.FetchFollowsItsRule : Prop :=
  ∀ s : State, legalParams s.params = true →
    (s.state ≠ .idle → s.Settled → exec .fetch s = .next { s with cmderr := true }) ∧
    (s.state = .idle → s.life ≠ .ready →
      exec .fetch s = .next { s with cmderr := false, cres := .transportUnavailable }) ∧
    (s.state = .idle → s.life = .ready → s.mode = .query →
      exec .fetch s = .next { s with
        cmderr := false, cres := .none, state := .sending, outputs := s.outputs ++ [request s] }) ∧
    (s.state = .idle → s.life = .ready → s.mode = .active →
      exec .fetch s = .next (settle { s with
        cmderr := false, cres := .none, tcnt := 0, state := .waiting })) ∧
    (∀ w : Word, w.toNat % 16 = 2 → exec (.regWrite 0x0C w) s = exec .fetch s)

/-- R98 and R104: the bytes of the request of a query-mode FETCH. -/
def Obligations.RequestFrameContents : Prop :=
  ∀ s : State, legalParams s.params = true →
    (s.params.xport = .uart → ∃ q : List Byte, request s = .txUart q ∧ q.length = s.params.qlen ∧
      q[0]? = some s.params.hdr ∧ q[1]? = some s.params.funcQuery ∧ q[2]? = some s.devId ∧
      (∀ i, 3 ≤ i → i + 2 ≤ s.params.qlen → q[i]? = some s.params.qpad) ∧
      (q.getD (s.params.qlen - 1) 0).toNat =
        ((q.take (s.params.qlen - 1)).map BitVec.toNat).sum % 256) ∧
    (s.params.xport = .can → ∃ id : CanId, request s = .txCan id 8 #v[0, 0, 0, 0, 0, 0, 0, 0] ∧
      id.toNat = s.prio.toNat * 2 ^ 24 + s.dataId.toNat * 2 ^ 16 + s.devId.toNat * 2 ^ 8 + s.hostId.toNat)

/-- R191: the three results of GET. -/
def Obligations.GetReadsOneChannelOfMeas : Prop :=
  ∀ (chan : BitVec 4) (s : State), legalParams s.params = true → s.Settled →
    (s.life ≠ .ready → exec (.get chan) s = .next { s with cmderr := false, gres := .transportUnavailable }) ∧
    (s.life = .ready → (s.params.chdesc.toList.getD chan.toNat .unsupported).valid = false →
      exec (.get chan) s = .next { s with cmderr := false, gres := .unsupportedChannel }) ∧
    (s.life = .ready → (s.params.chdesc.toList.getD chan.toNat .unsupported).valid = true →
      exec (.get chan) s = .next { s with
        cmderr := false, gres := .ok
        getval := field s.meas (s.params.chdesc.toList.getD chan.toNat .unsupported) }) ∧
    (∀ w : Word, w.toNat % 16 = 3 → w.toNat / 16 % 16 = chan.toNat →
      exec (.regWrite 0x0C w) s = exec (.get chan) s)

/-- MEAS is zero after reset, and while MEAS is zero a valid channel reads 0 (derived from R193, R190, R191, R32). That
MEAS stays zero until a FETCH succeeds is MeasChangesOnlyByResetOrSuccess. -/
def Obligations.GetReadsZeroWhileMeasIsZero : Prop :=
  (∀ p : Params, (State.resetOf p).meas = Vector.replicate 64 0) ∧
  (∀ (chan : BitVec 4) (s : State), legalParams s.params = true → s.Settled → s.life = .ready →
    s.meas = Vector.replicate 64 0 → (s.params.chdesc.toList.getD chan.toNat .unsupported).valid = true →
    exec (.get chan) s = .next { s with cmderr := false, gres := .ok, getval := 0 })

/-- R190: byte order, zero extension and sign extension of a field of 1 to 4 bytes. -/
def Obligations.FieldAssemblesBytesInOrderAndExtends : Prop :=
  ∀ (b : Buf) (d : ChanDesc), 1 ≤ d.n.val → d.n.val ≤ 4 →
    let raw := if d.be then
        ((List.range d.n.val).map fun k => (byteAt b (d.off.val + k)).toNat * 256 ^ (d.n.val - 1 - k)).sum
      else ((List.range d.n.val).map fun k => (byteAt b (d.off.val + k)).toNat * 256 ^ k).sum
    (d.sgn = false ∨ d.n.val = 4 → (field b d).toNat = raw) ∧
    (d.sgn = true → d.n.val < 4 →
      (field b d).toInt = if 2 * raw < 256 ^ d.n.val then (raw : Int) else (raw : Int) - 256 ^ d.n.val)

/-! ### Register access (10_state.md, 20_memory.md, 44_host_interface.md) -/

/-- R75: a read returns the register and leaves everything else as it was. The trace of returned values is the model's
(log entry 5). -/
def Obligations.RegReadReturnsAndChangesNothing : Prop :=
  ∀ (addr : Addr) (s : State), legalParams s.params = true → s.Settled → addr.toNat % 4 = 0 →
    exec (.regRead addr) s = .next { s with readReturns := s.readReturns ++ [readReg addr s] }

/-- R50: the fields of STATUS, a write to it, and its value after reset. -/
def Obligations.StatusShowsItsFields : Prop :=
  (∀ (s : State) (v : Word), legalParams s.params = true → s.Settled → exec (.regWrite 0x10 v) s = .next s) ∧
  (∀ p : Params, legalParams p = true →
    readReg 0x10 (State.resetOf p) = match p.xport with | .uart => 0x00000000 | .can => 0x00004000) ∧
  ∀ s : State, (readReg 0x10 s).toNat =
    (match s.state with | .idle => 0 | .initing => 1 | .sending => 2 | .waiting => 3)
    + 4 * (match s.life with | .uninit => 0 | .ready => 1 | .dead => 2)
    + 16 * (match s.cres with
        | .none => 0 | .ok => 1 | .noData => 2 | .malformedFrame => 3
        | .unsupportedChannel => 4 | .transportUnavailable => 5 | .sendFailure => 6)
    + 256 * (match s.gres with
        | .none => 0 | .ok => 1 | .noData => 2 | .malformedFrame => 3
        | .unsupportedChannel => 4 | .transportUnavailable => 5 | .sendFailure => 6)
    + 4096 * (match s.params.xport with
        | .uart => if byteAt s.stage 0 = s.params.hdr then 1 else 0
        | .can => if s.canPend then 1 else 0)
    + 8192 * (if s.cmderr then 1 else 0)
    + 16384 * (match s.params.xport with | .uart => 0 | .can => 1)

/-- R46 to R48, R51 to R58: what the other readable registers show. -/
def Obligations.RegistersShowTheirElements : Prop :=
  ∀ s : State, legalParams s.params = true →
    (readReg 0x00 s).toNat = (if s.mode = .query then 1 else 0) ∧
    (readReg 0x04 s).toNat =
      s.devId.toNat + 2 ^ 8 * s.hostId.toNat + 2 ^ 16 * s.dataId.toNat + 2 ^ 24 * s.prio.toNat ∧
    readReg 0x08 s = s.timeout ∧
    readReg 0x14 s = s.getval ∧
    (readReg 0x18 s).toNat = s.idx.toNat ∧
    readReg 0x1C s = s.tcnt ∧
    (readReg 0x20 s).toNat = (match s.params.xport with
      | .uart => s.params.len + 2 ^ 8 * s.params.hdr.toNat + 2 ^ 16 * s.params.qlen
          + 2 ^ 24 * s.params.funcQuery.toNat
      | .can => 8) ∧
    (readReg 0x24 s).toNat = s.stageCanId.toNat ∧
    (readReg 0x28 s).toNat = s.measCanId.toNat ∧
    (∀ k, k < 16 → (readReg (BitVec.ofNat 8 (0x40 + 4 * k)) s).toNat =
      (byteAt s.stage (4 * k)).toNat + 2 ^ 8 * (byteAt s.stage (4 * k + 1)).toNat
      + 2 ^ 16 * (byteAt s.stage (4 * k + 2)).toNat + 2 ^ 24 * (byteAt s.stage (4 * k + 3)).toNat) ∧
    (∀ k, k < 16 → (readReg (BitVec.ofNat 8 (0x80 + 4 * k)) s).toNat =
      (byteAt s.meas (4 * k)).toNat + 2 ^ 8 * (byteAt s.meas (4 * k + 1)).toNat
      + 2 ^ 16 * (byteAt s.meas (4 * k + 2)).toNat + 2 ^ 24 * (byteAt s.meas (4 * k + 3)).toNat)

/-- R44: CTRL, DEVCFG and TIMEOUT are written while UNINIT and IDLE, and at no other time. -/
def Obligations.ConfigIsWrittenOnlyBeforeInit : Prop :=
  ∀ (v : Word) (s : State), legalParams s.params = true →
    (s.life = .uninit → s.state = .idle →
      exec (.regWrite 0x00 v) s = .next { s with mode := if v.toNat % 2 = 1 then .query else .active } ∧
      exec (.regWrite 0x04 v) s = .next { s with
        devId := BitVec.ofNat 8 v.toNat
        hostId := BitVec.ofNat 8 (v.toNat / 2 ^ 8)
        dataId := BitVec.ofNat 8 (v.toNat / 2 ^ 16)
        prio := BitVec.ofNat 5 (v.toNat / 2 ^ 24) } ∧
      exec (.regWrite 0x08 v) s = .next { s with timeout := v }) ∧
    ((s.life ≠ .uninit ∨ s.state ≠ .idle) → s.Settled →
      exec (.regWrite 0x00 v) s = .next s ∧
      exec (.regWrite 0x04 v) s = .next s ∧
      exec (.regWrite 0x08 v) s = .next s)

/-- R73: unmapped offsets, read-only registers, reserved bits and reads of CMD. -/
def Obligations.UnmappedReadOnlyAndReservedReadZeroAndIgnoreWrites : Prop :=
  ∀ s : State, legalParams s.params = true →
    (∀ addr, addr.toNat % 4 = 0 → (addr = 0x0C ∨ unmapped addr) → s.Settled →
      exec (.regRead addr) s = .next { s with readReturns := s.readReturns ++ [0] }) ∧
    ((readReg 0x00 s).toNat < 2 ^ 1 ∧ (readReg 0x04 s).toNat < 2 ^ 29 ∧ (readReg 0x10 s).toNat < 2 ^ 15 ∧
      (readReg 0x18 s).toNat < 2 ^ 6 ∧ (readReg 0x24 s).toNat < 2 ^ 29 ∧ (readReg 0x28 s).toNat < 2 ^ 29) ∧
    (∀ addr v, addr.toNat % 4 = 0 → addr ≠ 0x00 → addr ≠ 0x04 → addr ≠ 0x08 → addr ≠ 0x0C → s.Settled →
      exec (.regWrite addr v) s = .next s) ∧
    (∀ v v' : Word, v.toNat % 2 = v'.toNat % 2 → exec (.regWrite 0x00 v) s = exec (.regWrite 0x00 v') s) ∧
    (∀ v v' : Word, v.toNat % 2 ^ 29 = v'.toNat % 2 ^ 29 →
      exec (.regWrite 0x04 v) s = exec (.regWrite 0x04 v') s) ∧
    (∀ v v' : Word, v.toNat % 2 ^ 8 = v'.toNat % 2 ^ 8 →
      exec (.regWrite 0x0C v) s = exec (.regWrite 0x0C v') s)

/-- R212: a write to CMD is the command it decodes to; which are dropped, and that a dropped one changes CMDERR only. -/
def Obligations.CommandIsDecodedThenDroppedOrAccepted : Prop :=
  (∀ (w : Word) (s : State), exec (.regWrite 0x0C w) s = exec (decodeCommand w) s) ∧
  ∀ (w : Word) (s : State), legalParams s.params = true → s.Settled →
    ∃ t, exec (.regWrite 0x0C w) s = .next t ∧
      (((w.toNat % 16 = 1 ∨ w.toNat % 16 = 2) ∧ s.state ≠ .idle
          ∨ w.toNat % 16 = 1 ∧ s.life ≠ .uninit
          ∨ 4 ≤ w.toNat % 16) → t = { s with cmderr := true }) ∧
      (¬ ((w.toNat % 16 = 1 ∨ w.toNat % 16 = 2) ∧ s.state ≠ .idle
          ∨ w.toNat % 16 = 1 ∧ s.life ≠ .uninit
          ∨ 4 ≤ w.toNat % 16) → t.cmderr = false)

/-! ### Reset (70_reset_and_hazards.md) -/

/-- R260 with the reset column of R32. That the traces and the inbox stay is the model's choice (log entries 3, 4 and 5). -/
def Obligations.ResetWritesEveryElement : Prop :=
  ∀ s : State, legalParams s.params = true →
    exec .reset s = .next
      { acc := Vector.replicate 64 0, idx := 0, stage := Vector.replicate 64 0, stageCanId := 0, canPend := false
        meas := Vector.replicate 64 0, measCanId := 0, getval := 0, tcnt := 0
        state := .idle, life := .uninit, cres := .none, gres := .none, cmderr := false
        mode := .active, devId := 0, hostId := 0, dataId := 0, prio := 0x18, timeout := 0
        params := s.params, inbox := s.inbox, outputs := s.outputs, readReturns := s.readReturns }

/-! ### Transport replies and the timeout counter (43_orchestrator.md) -/

/-- R176: INIT_DONE in INITING, and elsewhere. -/
def Obligations.InitDoneEndsInit : Prop :=
  ∀ s : State, legalParams s.params = true →
    (s.state = .initing →
      exec (.initDone true) s = .next { s with state := .idle, life := .ready, cres := .ok } ∧
      exec (.initDone false) s = .next { s with state := .idle, life := .dead, cres := .transportUnavailable }) ∧
    (s.state ≠ .initing → s.Settled → ∀ ok, exec (.initDone ok) s = .next s)

/-- R175: TX_DONE in SENDING, and elsewhere. -/
def Obligations.TxDoneStartsTheWaitOrFails : Prop :=
  ∀ s : State, legalParams s.params = true →
    (s.state = .sending →
      exec (.txDone true) s = .next (settle { s with tcnt := 0, state := .waiting }) ∧
      exec (.txDone false) s = .next { s with cres := .sendFailure, state := .idle }) ∧
    (s.state ≠ .sending → s.Settled → ∀ ok, exec (.txDone ok) s = .next s)

/-- R177: a reply outside its state changes nothing. -/
def Obligations.UnexpectedReplyIsIgnored : Prop :=
  ∀ (ok : Bool) (s : State), legalParams s.params = true → s.Settled →
    (s.state ≠ .sending → exec (.txDone ok) s = .next s) ∧
    (s.state ≠ .initing → exec (.initDone ok) s = .next s)

/-- R180: TICK counts while WAITING below TIMEOUT, without wrapping, and does nothing else; then settle. -/
def Obligations.TickCountsOnlyWhileWaiting : Prop :=
  ∀ s : State, legalParams s.params = true →
    (s.state = .waiting → s.tcnt < s.timeout →
      exec .tick s = .next (settle { s with tcnt := s.tcnt + 1 }) ∧
      (s.tcnt + 1).toNat = s.tcnt.toNat + 1) ∧
    (s.state = .waiting → ¬ s.tcnt < s.timeout → exec .tick s = .next (settle s)) ∧
    (s.state ≠ .waiting → exec .tick s = .next s)

/-- R182, R184, R185: how settle ends a wait, in the order arrival, then timeout. -/
def Obligations.SettleEndsTheWait : Prop :=
  ∀ s : State,
    (s.state ≠ .waiting → settle s = s) ∧
    (s.state = .waiting → s.params.xport = .uart → byteAt s.stage 0 = s.params.hdr →
      (((s.stage.toList.take (s.params.len - 1)).map BitVec.toNat).sum % 256
          = (byteAt s.stage (s.params.len - 1)).toNat →
        settle s = { s with
          meas := copyFirst s.params.len s.stage s.meas
          stage := Vector.replicate 64 0, cres := .ok, state := .idle }) ∧
      (((s.stage.toList.take (s.params.len - 1)).map BitVec.toNat).sum % 256
          ≠ (byteAt s.stage (s.params.len - 1)).toNat →
        settle s = { s with
          stage := if s.params.clearOnMalformed then Vector.replicate 64 0 else s.stage
          cres := .malformedFrame, state := .idle })) ∧
    (s.state = .waiting → s.params.xport = .can → s.canPend = true →
      settle s = { s with
        meas := copyFirst 8 s.stage s.meas, measCanId := s.stageCanId
        stage := Vector.replicate 64 0, stageCanId := 0, canPend := false, cres := .ok, state := .idle }) ∧
    (s.state = .waiting → (s.params.xport = .uart → byteAt s.stage 0 ≠ s.params.hdr) →
      (s.params.xport = .can → s.canPend = false) →
      (s.timeout.toNat ≤ s.tcnt.toNat → settle s = { s with cres := .noData, state := .idle }) ∧
      (s.tcnt.toNat < s.timeout.toNat → settle s = s))

/-- R186: a frame staged before it is looked for completes the FETCH in the step that enters WAITING. -/
def Obligations.StagedFrameCompletesFetchAtOnce : Prop :=
  ∀ s : State, legalParams s.params = true →
    (s.params.xport = .uart ∧ byteAt s.stage 0 = s.params.hdr ∨ s.params.xport = .can ∧ s.canPend = true) →
    (s.state = .idle → s.life = .ready → s.mode = .active →
      ∃ t, exec .fetch s = .next t ∧ t.state = .idle ∧ (t.cres = .ok ∨ t.cres = .malformedFrame)) ∧
    (s.state = .sending →
      ∃ t, exec (.txDone true) s = .next t ∧ t.state = .idle ∧ (t.cres = .ok ∨ t.cres = .malformedFrame))

/-- R189: with the default parameter a malformed frame stays, and the next FETCH returns MALFORMED_FRAME again. -/
def Obligations.MalformedFrameStaysStaged : Prop :=
  ∀ s : State, legalParams s.params = true → s.params.xport = .uart → s.params.clearOnMalformed = false →
    s.state = .idle → s.life = .ready → s.mode = .active →
    byteAt s.stage 0 = s.params.hdr → validate s.stage.toList s.params.len = false →
    ∃ t, exec .fetch s = .next t ∧ t.cres = .malformedFrame ∧ t.meas = s.meas ∧ t.stage = s.stage ∧
      t.state = .idle ∧ exec .fetch t = .next t

/-! ### The byte-stream synchronizer (41_frame_sync.md) -/

/-- R131: the transition on one byte, for each place of the cursor. -/
def Obligations.RxByteFollowsTheSynchronizer : Prop :=
  ∀ (b : Byte) (s : State), legalParams s.params = true → s.params.xport = .uart → s.life = .ready →
    s.idx.toNat < s.params.len →
    (s.idx.toNat = 0 → b ≠ s.params.hdr →
      exec (.rxByte b) s = .next (settle { s with idx := 0, acc := Vector.replicate 64 0 })) ∧
    ((s.idx.toNat ≠ 0 ∨ b = s.params.hdr) → s.idx.toNat + 1 < s.params.len →
      exec (.rxByte b) s = .next (settle { s with
        idx := s.idx + 1, acc := s.acc.setIfInBounds s.idx.toNat b }) ∧
      (s.idx + 1).toNat = s.idx.toNat + 1) ∧
    (s.idx.toNat + 1 = s.params.len →
      exec (.rxByte b) s = .next (settle { s with
        stage := copyFirst s.params.len (s.acc.setIfInBounds s.idx.toNat b) s.stage
        idx := 0, acc := Vector.replicate 64 0 }))

/-- R130: outside a READY UART instance a byte changes nothing. -/
def Obligations.RxByteIsIgnoredUnlessReadyUart : Prop :=
  ∀ (b : Byte) (s : State), legalParams s.params = true → s.Settled →
    (s.params.xport ≠ .uart ∨ s.life ≠ .ready) → exec (.rxByte b) s = .next s

/-- R133: the last byte publishes the whole frame, unchecked, and nothing else of the buffers' bytes. -/
def Obligations.CompletedFrameIsStagedWhole : Prop :=
  ∀ (b : Byte) (s : State), s.Inv → s.params.xport = .uart → s.life = .ready → s.state ≠ .waiting →
    s.idx.toNat + 1 = s.params.len →
    ∃ t, exec (.rxByte b) s = .next t ∧
      (∀ i, i + 1 < s.params.len → byteAt t.stage i = byteAt s.acc i) ∧
      byteAt t.stage (s.params.len - 1) = b ∧
      byteAt t.stage 0 = s.params.hdr ∧
      (∀ i, s.params.len ≤ i → byteAt t.stage i = byteAt s.stage i) ∧
      t = { s with stage := t.stage, idx := 0, acc := Vector.replicate 64 0 }

/-- R139 (a): `L - 1` bytes without a header bring the cursor to 0; a frame in progress is finished with them. -/
def Obligations.BytesWithoutHeaderEndTheFrameInProgress : Prop :=
  ∀ (bs : List Byte) (s : State), legalParams s.params = true → s.params.xport = .uart → s.life = .ready →
    s.state ≠ .waiting → s.idx.toNat < s.params.len →
    bs.length = s.params.len - 1 → (∀ b ∈ bs, b ≠ s.params.hdr) →
    ∃ t, execAll (rxBytes bs) s = .next t ∧ t.idx = 0 ∧
      completions bs s = (if s.idx.toNat = 0 then 0 else 1) ∧
      (s.idx.toNat = 0 → t.stage = s.stage) ∧
      (s.idx.toNat ≠ 0 → ∀ i, byteAt t.stage i =
        if i < s.idx.toNat then byteAt s.acc i
        else if i < s.params.len then bs.getD (i - s.idx.toNat) 0
        else byteAt s.stage i)

/-- R139 (b): after a run-in without a header, a frame is staged exactly, at its last byte and not before. -/
def Obligations.FrameAfterHeaderlessBytesIsStaged : Prop :=
  ∀ (runIn frame : List Byte) (s : State), legalParams s.params = true → s.params.xport = .uart →
    s.life = .ready → s.state ≠ .waiting → s.idx = 0 →
    (∀ b ∈ runIn, b ≠ s.params.hdr) → frame.length = s.params.len → frame.head? = some s.params.hdr →
    ∃ t, execAll (rxBytes (runIn ++ frame)) s = .next t ∧
      completions (runIn ++ frame) s = 1 ∧ completions (runIn ++ frame.dropLast) s = 0 ∧
      (∀ i, byteAt t.stage i = if i < s.params.len then frame.getD i 0 else byteAt s.stage i) ∧
      t = { s with stage := t.stage, acc := Vector.replicate 64 0 }

/-- R140: a frame twice with no gap completes twice, each time as it was sent. -/
def Obligations.BackToBackFramesBothComplete : Prop :=
  ∀ (frame : List Byte) (s : State), legalParams s.params = true → s.params.xport = .uart →
    s.life = .ready → s.state ≠ .waiting → s.idx = 0 →
    frame.length = s.params.len → frame.head? = some s.params.hdr →
    ∃ t u, execAll (rxBytes frame) s = .next t ∧ execAll (rxBytes frame) t = .next u ∧
      execAll (rxBytes (frame ++ frame)) s = .next u ∧
      completions (frame ++ frame) s = 2 ∧ u.idx = 0 ∧
      ∀ i, i < s.params.len → byteAt t.stage i = frame.getD i 0 ∧ byteAt u.stage i = frame.getD i 0

/-- A valid frame that arrives while a FETCH waits becomes the measurement (R131, R182, R184). -/
def Obligations.ValidFrameWhileWaitingBecomesTheMeasurement : Prop :=
  ∀ (runIn frame : List Byte) (s : State), legalParams s.params = true → s.params.xport = .uart →
    s.life = .ready → s.state = .waiting → s.Settled → s.idx = 0 →
    (∀ b ∈ runIn, b ≠ s.params.hdr) → frame.length = s.params.len → frame.head? = some s.params.hdr →
    validate frame s.params.len = true →
    ∃ t, execAll (rxBytes (runIn ++ frame)) s = .next t ∧
      (∀ i, byteAt t.meas i = if i < s.params.len then frame.getD i 0 else byteAt s.meas i) ∧
      t = { s with
        meas := t.meas, stage := Vector.replicate 64 0, acc := Vector.replicate 64 0
        cres := .ok, state := .idle }

/-! ### The CAN frame reader (42_can_reader.md) -/

/-- R150 to R153: which frames are staged, and that the others change nothing. -/
def Obligations.CanFrameIsStagedIffAccepted : Prop :=
  ∀ (ide rtr : Bool) (id : CanId) (dlc : BitVec 4) (data : CanData) (s : State), legalParams s.params = true →
    (s.params.xport = .can ∧ s.life = .ready ∧ ide = true ∧ rtr = false ∧ dlc.toNat = 8 ∧
        id.toNat % 2 ^ 24 = s.dataId.toNat * 2 ^ 16 + s.hostId.toNat * 2 ^ 8 + s.devId.toNat →
      ∃ staged : Buf,
        (∀ i, byteAt staged i = if i < 8 then data.toList.getD i 0 else byteAt s.stage i) ∧
        exec (.canRx ide rtr id dlc data) s = .next (settle { s with
          stage := staged, stageCanId := id, canPend := true })) ∧
    (¬ (s.params.xport = .can ∧ s.life = .ready ∧ ide = true ∧ rtr = false ∧ dlc.toNat = 8 ∧
        id.toNat % 2 ^ 24 = s.dataId.toNat * 2 ^ 16 + s.hostId.toNat * 2 ^ 8 + s.devId.toNat) → s.Settled →
      exec (.canRx ide rtr id dlc data) s = .next s)

/-- An accepted frame that arrives while a FETCH waits becomes the measurement (R152, R182, R185). -/
def Obligations.CanFrameWhileWaitingBecomesTheMeasurement : Prop :=
  ∀ (id : CanId) (data : CanData) (s : State), legalParams s.params = true →
    s.params.xport = .can → s.life = .ready → s.state = .waiting →
    id.toNat % 2 ^ 24 = s.dataId.toNat * 2 ^ 16 + s.hostId.toNat * 2 ^ 8 + s.devId.toNat →
    ∃ t, exec (.canRx true false id 8 data) s = .next t ∧
      (∀ i, byteAt t.meas i = if i < 8 then data.toList.getD i 0 else byteAt s.meas i) ∧
      t = { s with
        meas := t.meas, measCanId := id, stage := Vector.replicate 64 0, stageCanId := 0, canPend := false
        cres := .ok, state := .idle }

/-- R102: the identifier is below 2^29 and holds its four masked fields. -/
def Obligations.CanIdPacksItsFields : Prop :=
  ∀ p d dst org : Nat,
    canid p d dst org < 2 ^ 29 ∧
    canid p d dst org = p % 2 ^ 5 * 2 ^ 24 + d % 2 ^ 8 * 2 ^ 16 + dst % 2 ^ 8 * 2 ^ 8 + org % 2 ^ 8

/-! ### The checksum validator (40_checksum.md) -/

/-- R120 and R121 in numbers. -/
def Obligations.ChecksumIsTheSumOfAllButTheLastByte : Prop :=
  ∀ (bs : List Byte) (n : Nat), 1 ≤ n → n ≤ bs.length →
    (checksum bs n).toNat = ((bs.take (n - 1)).map BitVec.toNat).sum % 256 ∧
    (validate bs n = true ↔ (checksum bs n).toNat = (bs.getD (n - 1) 0).toNat)

/-- A change to any single byte of a valid frame is detected (R121). -/
def Obligations.SingleByteErrorIsDetected : Prop :=
  ∀ (bs : List Byte) (n i : Nat) (b : Byte), n ≤ bs.length → i < n →
    validate bs n = true → b ≠ bs.getD i 0 → validate (bs.set i b) n = false

/-- R124: the request FSYNC sends passes its own validator, for every DEV_ID. -/
def Obligations.QueryFrameValidates : Prop :=
  ∀ s : State, legalParams s.params = true → validate (queryFrame s) s.params.qlen = true

/-! ### Whole-machine rules -/

/-- Every step keeps the invariant of the reachable states. -/
def Obligations.StepKeepsTheInvariant : Prop :=
  ∀ s t : State, s.Inv → step s = .next t → t.Inv

/-- The reset state of every legal instance has the invariant, and so has the model's reset state. -/
def Obligations.ResetStateHasTheInvariant : Prop :=
  (∀ p : Params, legalParams p = true → (State.resetOf p).Inv) ∧ State.reset.Inv

/-- R183: after every step, from whatever state, a WAITING machine has no frame and has time left, and settle then does
nothing to it. -/
def Obligations.EveryStepLeavesASettledState : Prop :=
  (∀ (i : Instr) (s t : State), exec i s = .next t → t.Settled) ∧ ∀ s : State, s.Settled → settle s = s

/-- D16, R182: nothing arriving, a wait ends with NO_DATA in the step of the TICK that reaches TIMEOUT, not before. -/
def Obligations.WaitEndsAtTheTimeoutTick : Prop :=
  ∀ s : State, legalParams s.params = true → s.state = .waiting → s.Settled →
    (∀ k, k < s.timeout.toNat - s.tcnt.toNat →
      execAll (List.replicate k .tick) s = .next { s with tcnt := s.tcnt + BitVec.ofNat 32 k }) ∧
    execAll (List.replicate (s.timeout.toNat - s.tcnt.toNat) .tick) s =
      .next { s with tcnt := s.timeout, cres := .noData, state := .idle }

/-- R253: whatever other events come, RESET apart, a wait has ended once as many TICKs have come as were left. -/
def Obligations.WaitEndsWithinTimeoutTicksWhateverElseComes : Prop :=
  ∀ (is : List Instr) (s : State), legalParams s.params = true → s.state = .waiting → s.Settled →
    (∀ i ∈ is, i.wellFormed = true ∧ i ≠ .reset) →
    s.timeout.toNat - s.tcnt.toNat ≤ is.count .tick →
    ∃ k t, k ≤ is.length ∧ execAll (is.take k) s = .next t ∧ t.state = .idle ∧
      (t.cres = .ok ∨ t.cres = .noData ∨ t.cres = .malformedFrame)

/-- R187: after a FETCH that returned OK, a second one with nothing new staged ends in NO_DATA after TIMEOUT ticks. -/
def Obligations.SecondFetchWithoutNewFrameReturnsNoData : Prop :=
  ∀ s t : State, s.Inv → s.life = .ready → s.mode = .active → s.state = .idle → arrived s = true →
    exec .fetch s = .next t → t.cres = .ok →
    execAll (.fetch :: List.replicate t.timeout.toNat .tick) t =
      .next { t with cmderr := false, tcnt := t.timeout, cres := .noData }

/-- R36, R252: MEAS changes only by RESET or in a step that ends a FETCH with OK: one taken from WAITING, the TX_DONE(1)
of a SENDING, or an active-mode FETCH, as such or as its word to CMD, on an idle READY device. -/
def Obligations.MeasChangesOnlyByResetOrSuccess : Prop :=
  ∀ (i : Instr) (s t : State), exec i s = .next t → (t.meas ≠ s.meas ∨ t.measCanId ≠ s.measCanId) →
    i = .reset ∨
    (t.cres = .ok ∧ t.state = .idle ∧ t.stage = Vector.replicate 64 0 ∧
      (s.state = .waiting ∨
       (s.state = .sending ∧ i = .txDone true) ∨
       (s.state = .idle ∧ s.life = .ready ∧ s.mode = .active ∧
         (i = .fetch ∨ ∃ w : Word, i = .regWrite 0x0C w ∧ w.toNat % 16 = 2))))

/-- R40, R59: LIFE is written by INIT_DONE and RESET only, and only RESET leaves DEAD. -/
def Obligations.OnlyInitDoneAndResetWriteLife : Prop :=
  ∀ (i : Instr) (s t : State), exec i s = .next t → t.life ≠ s.life →
    i = .reset ∨ (∃ ok, i = .initDone ok ∧ s.state = .initing)

/-- Once DEAD, a machine that satisfies the invariant is left only by RESET (R40, R232). -/
def Obligations.OnlyResetLeavesDead : Prop :=
  ∀ (i : Instr) (s t : State), s.Inv → s.life = .dead → exec i s = .next t → i ≠ .reset → t.life = .dead

/-- R44, R242: the Device Context changes only by RESET or by a configuration write before INIT. -/
def Obligations.DeviceContextIsImmutableAfterInit : Prop :=
  ∀ (i : Instr) (s t : State), exec i s = .next t →
    (t.mode ≠ s.mode ∨ t.devId ≠ s.devId ∨ t.hostId ≠ s.hostId ∨ t.dataId ≠ s.dataId ∨ t.prio ≠ s.prio ∨
      t.timeout ≠ s.timeout) →
    i = .reset ∨ (s.life = .uninit ∧ s.state = .idle ∧
      ∃ addr v, i = .regWrite addr v ∧ (addr = 0x00 ∨ addr = 0x04 ∨ addr = 0x08))

/-- R96: an output is emitted only by a step that leaves IDLE for INITING or SENDING, one at a time. -/
def Obligations.OutputsAreEmittedOneAtATimeFromIdle : Prop :=
  ∀ (i : Instr) (s t : State), exec i s = .next t →
    t.outputs = s.outputs ∨
    (s.state = .idle ∧
      ((t.state = .initing ∧ t.outputs = s.outputs ++ [.initReq]) ∨
       (t.state = .sending ∧ t.outputs = s.outputs ++ [request s])))

/-- R188, R253, U13: only its own reply or RESET ends INITING or SENDING, and only a frame, a TICK or RESET a settled wait. -/
def Obligations.NothingElseEndsACommandInProgress : Prop :=
  ∀ (i : Instr) (s t : State), exec i s = .next t →
    (s.state = .initing → t.state ≠ .initing → i = .reset ∨ ∃ ok, i = .initDone ok) ∧
    (s.state = .sending → t.state ≠ .sending → i = .reset ∨ ∃ ok, i = .txDone ok) ∧
    (s.state = .waiting → s.Settled → t.state ≠ .waiting →
      i = .reset ∨ i = .tick ∨ (∃ b, i = .rxByte b) ∨ ∃ ide rtr id dlc data, i = .canRx ide rtr id dlc data)

/-- R37, R41: GRES and GETVAL are written by GET and RESET only; a GET that fails leaves GETVAL. -/
def Obligations.OnlyGetAndResetWriteGetResults : Prop :=
  ∀ (i : Instr) (s t : State), exec i s = .next t →
    (t.gres ≠ s.gres ∨ t.getval ≠ s.getval →
      i = .reset ∨ (∃ chan, i = .get chan) ∨ ∃ w : Word, i = .regWrite 0x0C w ∧ w.toNat % 16 = 3) ∧
    (t.getval ≠ s.getval → i = .reset ∨ t.gres = .ok)
end

