-- ==== Sys2Proof/Laws/State.lean ====
section
/-! SUPPORT. What the named updates of State leave in each field, so that no proof unfolds them. -/

namespace Sys2Proof.Machine

variable (s : State) (r : ResultCode) (o : OutTx) (d : Bool)

/-! ### setCmderr -/

@[simp] theorem setCmderr_acc : (setCmderr d s).acc = s.acc := rfl
@[simp] theorem setCmderr_idx : (setCmderr d s).idx = s.idx := rfl
@[simp] theorem setCmderr_stage : (setCmderr d s).stage = s.stage := rfl
@[simp] theorem setCmderr_stageCanId : (setCmderr d s).stageCanId = s.stageCanId := rfl
@[simp] theorem setCmderr_canPend : (setCmderr d s).canPend = s.canPend := rfl
@[simp] theorem setCmderr_meas : (setCmderr d s).meas = s.meas := rfl
@[simp] theorem setCmderr_measCanId : (setCmderr d s).measCanId = s.measCanId := rfl
@[simp] theorem setCmderr_getval : (setCmderr d s).getval = s.getval := rfl
@[simp] theorem setCmderr_tcnt : (setCmderr d s).tcnt = s.tcnt := rfl
@[simp] theorem setCmderr_state : (setCmderr d s).state = s.state := rfl
@[simp] theorem setCmderr_life : (setCmderr d s).life = s.life := rfl
@[simp] theorem setCmderr_cres : (setCmderr d s).cres = s.cres := rfl
@[simp] theorem setCmderr_gres : (setCmderr d s).gres = s.gres := rfl
@[simp] theorem setCmderr_cmderr : (setCmderr d s).cmderr = d := rfl
@[simp] theorem setCmderr_mode : (setCmderr d s).mode = s.mode := rfl
@[simp] theorem setCmderr_devId : (setCmderr d s).devId = s.devId := rfl
@[simp] theorem setCmderr_hostId : (setCmderr d s).hostId = s.hostId := rfl
@[simp] theorem setCmderr_dataId : (setCmderr d s).dataId = s.dataId := rfl
@[simp] theorem setCmderr_prio : (setCmderr d s).prio = s.prio := rfl
@[simp] theorem setCmderr_timeout : (setCmderr d s).timeout = s.timeout := rfl
@[simp] theorem setCmderr_params : (setCmderr d s).params = s.params := rfl
@[simp] theorem setCmderr_inbox : (setCmderr d s).inbox = s.inbox := rfl
@[simp] theorem setCmderr_outputs : (setCmderr d s).outputs = s.outputs := rfl
@[simp] theorem setCmderr_readReturns : (setCmderr d s).readReturns = s.readReturns := rfl

/-! ### postCommandResult -/

@[simp] theorem postCommandResult_acc : (postCommandResult r s).acc = s.acc := rfl
@[simp] theorem postCommandResult_idx : (postCommandResult r s).idx = s.idx := rfl
@[simp] theorem postCommandResult_stage : (postCommandResult r s).stage = s.stage := rfl
@[simp] theorem postCommandResult_stageCanId : (postCommandResult r s).stageCanId = s.stageCanId := rfl
@[simp] theorem postCommandResult_canPend : (postCommandResult r s).canPend = s.canPend := rfl
@[simp] theorem postCommandResult_meas : (postCommandResult r s).meas = s.meas := rfl
@[simp] theorem postCommandResult_measCanId : (postCommandResult r s).measCanId = s.measCanId := rfl
@[simp] theorem postCommandResult_getval : (postCommandResult r s).getval = s.getval := rfl
@[simp] theorem postCommandResult_tcnt : (postCommandResult r s).tcnt = s.tcnt := rfl
@[simp] theorem postCommandResult_state : (postCommandResult r s).state = .idle := rfl
@[simp] theorem postCommandResult_life : (postCommandResult r s).life = s.life := rfl
@[simp] theorem postCommandResult_cres : (postCommandResult r s).cres = r := rfl
@[simp] theorem postCommandResult_gres : (postCommandResult r s).gres = s.gres := rfl
@[simp] theorem postCommandResult_cmderr : (postCommandResult r s).cmderr = s.cmderr := rfl
@[simp] theorem postCommandResult_mode : (postCommandResult r s).mode = s.mode := rfl
@[simp] theorem postCommandResult_devId : (postCommandResult r s).devId = s.devId := rfl
@[simp] theorem postCommandResult_hostId : (postCommandResult r s).hostId = s.hostId := rfl
@[simp] theorem postCommandResult_dataId : (postCommandResult r s).dataId = s.dataId := rfl
@[simp] theorem postCommandResult_prio : (postCommandResult r s).prio = s.prio := rfl
@[simp] theorem postCommandResult_timeout : (postCommandResult r s).timeout = s.timeout := rfl
@[simp] theorem postCommandResult_params : (postCommandResult r s).params = s.params := rfl
@[simp] theorem postCommandResult_inbox : (postCommandResult r s).inbox = s.inbox := rfl
@[simp] theorem postCommandResult_outputs : (postCommandResult r s).outputs = s.outputs := rfl
@[simp] theorem postCommandResult_readReturns : (postCommandResult r s).readReturns = s.readReturns := rfl

/-! ### postGetResult -/

@[simp] theorem postGetResult_acc : (postGetResult r s).acc = s.acc := rfl
@[simp] theorem postGetResult_idx : (postGetResult r s).idx = s.idx := rfl
@[simp] theorem postGetResult_stage : (postGetResult r s).stage = s.stage := rfl
@[simp] theorem postGetResult_stageCanId : (postGetResult r s).stageCanId = s.stageCanId := rfl
@[simp] theorem postGetResult_canPend : (postGetResult r s).canPend = s.canPend := rfl
@[simp] theorem postGetResult_meas : (postGetResult r s).meas = s.meas := rfl
@[simp] theorem postGetResult_measCanId : (postGetResult r s).measCanId = s.measCanId := rfl
@[simp] theorem postGetResult_getval : (postGetResult r s).getval = s.getval := rfl
@[simp] theorem postGetResult_tcnt : (postGetResult r s).tcnt = s.tcnt := rfl
@[simp] theorem postGetResult_state : (postGetResult r s).state = s.state := rfl
@[simp] theorem postGetResult_life : (postGetResult r s).life = s.life := rfl
@[simp] theorem postGetResult_cres : (postGetResult r s).cres = s.cres := rfl
@[simp] theorem postGetResult_gres : (postGetResult r s).gres = r := rfl
@[simp] theorem postGetResult_cmderr : (postGetResult r s).cmderr = s.cmderr := rfl
@[simp] theorem postGetResult_mode : (postGetResult r s).mode = s.mode := rfl
@[simp] theorem postGetResult_devId : (postGetResult r s).devId = s.devId := rfl
@[simp] theorem postGetResult_hostId : (postGetResult r s).hostId = s.hostId := rfl
@[simp] theorem postGetResult_dataId : (postGetResult r s).dataId = s.dataId := rfl
@[simp] theorem postGetResult_prio : (postGetResult r s).prio = s.prio := rfl
@[simp] theorem postGetResult_timeout : (postGetResult r s).timeout = s.timeout := rfl
@[simp] theorem postGetResult_params : (postGetResult r s).params = s.params := rfl
@[simp] theorem postGetResult_inbox : (postGetResult r s).inbox = s.inbox := rfl
@[simp] theorem postGetResult_outputs : (postGetResult r s).outputs = s.outputs := rfl
@[simp] theorem postGetResult_readReturns : (postGetResult r s).readReturns = s.readReturns := rfl

/-! ### emit -/

@[simp] theorem emit_acc : (emit o s).acc = s.acc := rfl
@[simp] theorem emit_idx : (emit o s).idx = s.idx := rfl
@[simp] theorem emit_stage : (emit o s).stage = s.stage := rfl
@[simp] theorem emit_stageCanId : (emit o s).stageCanId = s.stageCanId := rfl
@[simp] theorem emit_canPend : (emit o s).canPend = s.canPend := rfl
@[simp] theorem emit_meas : (emit o s).meas = s.meas := rfl
@[simp] theorem emit_measCanId : (emit o s).measCanId = s.measCanId := rfl
@[simp] theorem emit_getval : (emit o s).getval = s.getval := rfl
@[simp] theorem emit_tcnt : (emit o s).tcnt = s.tcnt := rfl
@[simp] theorem emit_state : (emit o s).state = s.state := rfl
@[simp] theorem emit_life : (emit o s).life = s.life := rfl
@[simp] theorem emit_cres : (emit o s).cres = s.cres := rfl
@[simp] theorem emit_gres : (emit o s).gres = s.gres := rfl
@[simp] theorem emit_cmderr : (emit o s).cmderr = s.cmderr := rfl
@[simp] theorem emit_mode : (emit o s).mode = s.mode := rfl
@[simp] theorem emit_devId : (emit o s).devId = s.devId := rfl
@[simp] theorem emit_hostId : (emit o s).hostId = s.hostId := rfl
@[simp] theorem emit_dataId : (emit o s).dataId = s.dataId := rfl
@[simp] theorem emit_prio : (emit o s).prio = s.prio := rfl
@[simp] theorem emit_timeout : (emit o s).timeout = s.timeout := rfl
@[simp] theorem emit_params : (emit o s).params = s.params := rfl
@[simp] theorem emit_inbox : (emit o s).inbox = s.inbox := rfl
@[simp] theorem emit_outputs : (emit o s).outputs = s.outputs ++ [o] := rfl
@[simp] theorem emit_readReturns : (emit o s).readReturns = s.readReturns := rfl

/-! ### enterWaiting -/

@[simp] theorem enterWaiting_acc : (enterWaiting s).acc = s.acc := rfl
@[simp] theorem enterWaiting_idx : (enterWaiting s).idx = s.idx := rfl
@[simp] theorem enterWaiting_stage : (enterWaiting s).stage = s.stage := rfl
@[simp] theorem enterWaiting_stageCanId : (enterWaiting s).stageCanId = s.stageCanId := rfl
@[simp] theorem enterWaiting_canPend : (enterWaiting s).canPend = s.canPend := rfl
@[simp] theorem enterWaiting_meas : (enterWaiting s).meas = s.meas := rfl
@[simp] theorem enterWaiting_measCanId : (enterWaiting s).measCanId = s.measCanId := rfl
@[simp] theorem enterWaiting_getval : (enterWaiting s).getval = s.getval := rfl
@[simp] theorem enterWaiting_tcnt : (enterWaiting s).tcnt = 0 := rfl
@[simp] theorem enterWaiting_state : (enterWaiting s).state = .waiting := rfl
@[simp] theorem enterWaiting_life : (enterWaiting s).life = s.life := rfl
@[simp] theorem enterWaiting_cres : (enterWaiting s).cres = s.cres := rfl
@[simp] theorem enterWaiting_gres : (enterWaiting s).gres = s.gres := rfl
@[simp] theorem enterWaiting_cmderr : (enterWaiting s).cmderr = s.cmderr := rfl
@[simp] theorem enterWaiting_mode : (enterWaiting s).mode = s.mode := rfl
@[simp] theorem enterWaiting_devId : (enterWaiting s).devId = s.devId := rfl
@[simp] theorem enterWaiting_hostId : (enterWaiting s).hostId = s.hostId := rfl
@[simp] theorem enterWaiting_dataId : (enterWaiting s).dataId = s.dataId := rfl
@[simp] theorem enterWaiting_prio : (enterWaiting s).prio = s.prio := rfl
@[simp] theorem enterWaiting_timeout : (enterWaiting s).timeout = s.timeout := rfl
@[simp] theorem enterWaiting_params : (enterWaiting s).params = s.params := rfl
@[simp] theorem enterWaiting_inbox : (enterWaiting s).inbox = s.inbox := rfl
@[simp] theorem enterWaiting_outputs : (enterWaiting s).outputs = s.outputs := rfl
@[simp] theorem enterWaiting_readReturns : (enterWaiting s).readReturns = s.readReturns := rfl

/-! ### resetOf -/

@[simp] theorem resetOf_acc (p : Params) : (State.resetOf p).acc = zeroBuf := rfl
@[simp] theorem resetOf_idx (p : Params) : (State.resetOf p).idx = 0 := rfl
@[simp] theorem resetOf_stage (p : Params) : (State.resetOf p).stage = zeroBuf := rfl
@[simp] theorem resetOf_stageCanId (p : Params) : (State.resetOf p).stageCanId = 0 := rfl
@[simp] theorem resetOf_canPend (p : Params) : (State.resetOf p).canPend = false := rfl
@[simp] theorem resetOf_meas (p : Params) : (State.resetOf p).meas = zeroBuf := rfl
@[simp] theorem resetOf_measCanId (p : Params) : (State.resetOf p).measCanId = 0 := rfl
@[simp] theorem resetOf_getval (p : Params) : (State.resetOf p).getval = 0 := rfl
@[simp] theorem resetOf_tcnt (p : Params) : (State.resetOf p).tcnt = 0 := rfl
@[simp] theorem resetOf_state (p : Params) : (State.resetOf p).state = .idle := rfl
@[simp] theorem resetOf_life (p : Params) : (State.resetOf p).life = .uninit := rfl
@[simp] theorem resetOf_cres (p : Params) : (State.resetOf p).cres = .none := rfl
@[simp] theorem resetOf_gres (p : Params) : (State.resetOf p).gres = .none := rfl
@[simp] theorem resetOf_cmderr (p : Params) : (State.resetOf p).cmderr = false := rfl
@[simp] theorem resetOf_mode (p : Params) : (State.resetOf p).mode = .active := rfl
@[simp] theorem resetOf_devId (p : Params) : (State.resetOf p).devId = 0 := rfl
@[simp] theorem resetOf_hostId (p : Params) : (State.resetOf p).hostId = 0 := rfl
@[simp] theorem resetOf_dataId (p : Params) : (State.resetOf p).dataId = 0 := rfl
@[simp] theorem resetOf_prio (p : Params) : (State.resetOf p).prio = 0x18 := rfl
@[simp] theorem resetOf_timeout (p : Params) : (State.resetOf p).timeout = 0 := rfl
@[simp] theorem resetOf_params (p : Params) : (State.resetOf p).params = p := rfl
@[simp] theorem resetOf_inbox (p : Params) : (State.resetOf p).inbox = [] := rfl
@[simp] theorem resetOf_outputs (p : Params) : (State.resetOf p).outputs = [] := rfl
@[simp] theorem resetOf_readReturns (p : Params) : (State.resetOf p).readReturns = [] := rfl

end Sys2Proof.Machine
end

