-- ==== Sys2Proof/Laws/Ops.lean ====
section
/-! SUPPORT. One lemma per shared operation: what buffers hold after a write, what an instance must be, what settle can do,
and what a step's shape says. -/

namespace Sys2Proof.Machine

/-! ### Buffers -/

theorem byteAt_of_lt (b : Buf) {i : Nat} (h : i < 64) : byteAt b i = b[i] := by
  simp [byteAt, Vector.getD, h]

theorem byteAt_of_ge (b : Buf) {i : Nat} (h : 64 ≤ i) : byteAt b i = 0 := by
  simp [byteAt, Vector.getD, Nat.not_lt.2 h]

@[simp] theorem byteAt_zeroBuf (i : Nat) : byteAt zeroBuf i = 0 := by
  by_cases h : i < 64
  · simp [byteAt_of_lt _ h, zeroBuf]
  · exact byteAt_of_ge _ (Nat.not_lt.1 h)

/-- Equal buffers are buffers with equal bytes. -/
theorem buf_ext {a b : Buf} (h : ∀ i, i < 64 → byteAt a i = byteAt b i) : a = b := by
  refine Vector.ext fun i hi => ?_
  rw [← byteAt_of_lt a hi, ← byteAt_of_lt b hi]
  exact h i hi

/-- A write changes the byte it names and no other. -/
theorem byteAt_putByte (b : Buf) (i j : Nat) (v : Byte) :
    byteAt (putByte b i v) j = if j = i ∧ j < 64 then v else byteAt b j := by
  by_cases h : j < 64
  · simp only [byteAt_of_lt _ h, putByte, Vector.getElem_setIfInBounds]
    by_cases hij : i = j
    · simp [hij, h]
    · simp [hij, h, Ne.symm hij]
  · simp [byteAt_of_ge _ (Nat.not_lt.1 h), h]

/-- A copy of the first `n` bytes changes those and no other. -/
theorem byteAt_copyFirst (n : Nat) (src dst : Buf) (i : Nat) (hn : n ≤ 64) :
    byteAt (copyFirst n src dst) i = if i < n then byteAt src i else byteAt dst i := by
  induction n with
  | zero => simp [copyFirst]
  | succ n ih =>
    rw [copyFirst, byteAt_putByte, ih (by omega)]
    by_cases hi : i = n
    · subst hi; simp; omega
    · have : (i < n + 1) = (i < n) := by simp; omega
      simp [hi, this]

/-- The payload of a CAN frame fills the first eight bytes and no other. -/
theorem byteAt_copyPayload (data : CanData) (dst : Buf) (i : Nat) :
    byteAt (copyPayload data dst) i = if i < 8 then data.toList.getD i 0 else byteAt dst i := by
  have hd : ∀ j, data.getD j 0 = data.toList.getD j 0 := by
    intro j
    by_cases h : j < 8
    · simp [Vector.getD, List.getD_eq_getElem?_getD, h]
    · simp [Vector.getD, List.getD_eq_getElem?_getD, h]
  simp only [copyPayload, List.range, List.range.loop, List.foldl, byteAt_putByte, hd]
  by_cases h : i < 8
  · interval_cases i <;> simp
  · have h' : ∀ k, k < 8 → i ≠ k := fun k hk => by omega
    simp [h, h' 0, h' 1, h' 2, h' 3, h' 4, h' 5, h' 6, h' 7]

@[simp] theorem length_toList (b : Buf) : b.toList.length = 64 := by simp

theorem getD_toList (b : Buf) (i : Nat) : b.toList.getD i 0 = byteAt b i := by
  by_cases h : i < 64
  · simp [byteAt_of_lt _ h, List.getD_eq_getElem?_getD, h]
  · rw [byteAt_of_ge _ (Nat.not_lt.1 h)]
    simp [List.getD_eq_getElem?_getD, h]

theorem getElem?_toList (b : Buf) {i : Nat} (h : i < 64) : b.toList[i]? = some (byteAt b i) := by
  simp [byteAt_of_lt _ h, h]

/-- Two buffers that agree on their first `n` bytes validate alike. -/
theorem validate_congr {a b : List Byte} {n : Nat} (h1 : 1 ≤ n)
    (h : a.take n = b.take n) : validate a n = validate b n := by
  have ht : a.take (n - 1) = b.take (n - 1) := by
    have := congrArg (List.take (n - 1)) h
    simpa [List.take_take, Nat.min_eq_left (Nat.sub_le n 1)] using this
  have hg : a.getD (n - 1) 0 = b.getD (n - 1) 0 := by
    have := congrArg (fun l => l.getD (n - 1) 0) h
    simpa [List.getD_eq_getElem?_getD, List.getElem?_take, Nat.sub_lt h1] using this
  simp only [validate, checksum, ht, hg]

/-! ### Instances -/

/-- The legal values of R10, R13 and R107. -/
theorem legalParams_iff (p : Params) :
    legalParams p = true ↔
      2 ≤ p.len ∧ p.len ≤ 64 ∧ p.hdr ≠ 0 ∧ 4 ≤ p.qlen ∧ p.qlen ≤ 64 ∧
      ∀ d ∈ p.chdesc.toList, d.valid = true →
        1 ≤ d.n.val ∧ d.n.val ≤ 4 ∧ d.off.val + d.n.val ≤ frameLen p := by
  simp only [legalParams, legalDesc, Bool.and_eq_true, decide_eq_true_eq, bne_iff_ne, List.all_eq_true,
    Bool.or_eq_true, Bool.not_eq_true']
  constructor
  · rintro ⟨⟨⟨⟨a, b⟩, c⟩, d, e⟩, f⟩
    refine ⟨a, b, c, d, e, fun x hx hv => ?_⟩
    rcases f x hx with g | g
    · simp [hv] at g
    · exact ⟨g.1.1, g.1.2, g.2⟩
  · rintro ⟨a, b, c, d, e, f⟩
    refine ⟨⟨⟨⟨a, b⟩, c⟩, d, e⟩, fun x hx => ?_⟩
    cases hv : x.valid
    · exact .inl rfl
    · have := f x hx hv
      exact .inr ⟨⟨this.1, this.2.1⟩, this.2.2⟩

/-! ### Arrival and settle -/

theorem arrived_uart {s : State} (h : s.params.xport = .uart) :
    arrived s = (byteAt s.stage 0 == s.params.hdr) := by simp [arrived, h]

theorem arrived_can {s : State} (h : s.params.xport = .can) : arrived s = s.canPend := by simp [arrived, h]

/-- Outside WAITING settle does nothing (R182). -/
theorem settle_of_not_waiting {s : State} (h : s.state ≠ .waiting) : settle s = s := by simp [settle, h]

/-- Everything settle can do (R182): nothing outside WAITING or while time is left, complete an arrived frame, or post
NO_DATA. -/
theorem settle_cases (s : State) :
    (s.state ≠ .waiting ∧ settle s = s) ∨
    (s.state = .waiting ∧ arrived s = true ∧ settle s = complete s) ∨
    (s.state = .waiting ∧ arrived s = false ∧ s.timeout ≤ s.tcnt ∧ settle s = postCommandResult .noData s) ∨
    (s.state = .waiting ∧ arrived s = false ∧ s.tcnt < s.timeout ∧ settle s = s) := by
  unfold settle
  by_cases hw : s.state = .waiting
  · cases ha : arrived s
    · by_cases ht : s.timeout ≤ s.tcnt
      · simp [hw, ht]
      · simp [hw, ht]; exact BitVec.not_le.1 ht
    · simp [hw]
  · simp [hw]

/-- Settle completes an arrived frame (R182). -/
theorem settle_arrived {s : State} (hw : s.state = .waiting) (ha : arrived s = true) : settle s = complete s := by
  simp [settle, hw, ha]

/-- Settle posts NO_DATA when time is up and nothing has arrived (R182). -/
theorem settle_noData {s : State} (hw : s.state = .waiting) (ha : arrived s = false) (ht : s.timeout ≤ s.tcnt) :
    settle s = { s with cres := .noData, state := .idle } := by
  simp [settle, hw, ha, ht, postCommandResult]

/-- Everything a completion can do (R184, R185). -/
theorem complete_cases (s : State) :
    (s.params.xport = .uart ∧ validate s.stage.toList s.params.len = true ∧
      complete s = { s with
        meas := copyFirst s.params.len s.stage s.meas, stage := zeroBuf, cres := .ok, state := .idle }) ∨
    (s.params.xport = .uart ∧ validate s.stage.toList s.params.len = false ∧
      complete s = { s with
        stage := if s.params.clearOnMalformed then zeroBuf else s.stage
        cres := .malformedFrame, state := .idle }) ∨
    (s.params.xport = .can ∧
      complete s = { s with
        meas := copyFirst 8 s.stage s.meas, measCanId := s.stageCanId, stage := zeroBuf
        stageCanId := 0, canPend := false, cres := .ok, state := .idle }) := by
  cases hx : s.params.xport
  · cases hv : validate s.stage.toList s.params.len
    · refine .inr (.inl ⟨rfl, rfl, ?_⟩)
      by_cases hc : s.params.clearOnMalformed <;>
        simp [complete, hx, completeUart, hv, dropMalformed, hc, postCommandResult]
    · refine .inl ⟨rfl, rfl, ?_⟩
      simp [complete, hx, completeUart, hv, postCommandResult]
  · refine .inr (.inr ⟨rfl, ?_⟩)
    simp [complete, hx, completeCan, postCommandResult]

@[simp] theorem complete_state (s : State) : (complete s).state = .idle := by
  obtain ⟨_, _, h⟩ | ⟨_, _, h⟩ | ⟨_, h⟩ := complete_cases s <;> rw [h]

/-- The elements neither a completion nor a timeout touches. -/
theorem settle_frame (s : State) :
    (settle s).acc = s.acc ∧ (settle s).idx = s.idx ∧ (settle s).getval = s.getval ∧ (settle s).tcnt = s.tcnt ∧
    (settle s).life = s.life ∧ (settle s).gres = s.gres ∧ (settle s).cmderr = s.cmderr ∧
    (settle s).mode = s.mode ∧ (settle s).devId = s.devId ∧ (settle s).hostId = s.hostId ∧
    (settle s).dataId = s.dataId ∧ (settle s).prio = s.prio ∧ (settle s).timeout = s.timeout ∧
    (settle s).params = s.params ∧ (settle s).inbox = s.inbox ∧ (settle s).outputs = s.outputs ∧
    (settle s).readReturns = s.readReturns := by
  obtain ⟨_, h⟩ | ⟨_, _, h⟩ | ⟨_, _, _, h⟩ | ⟨_, _, _, h⟩ := settle_cases s
  · simp [h]
  · obtain ⟨_, _, hc⟩ | ⟨_, _, hc⟩ | ⟨_, hc⟩ := complete_cases s <;> simp [h, hc]
  · simp [h]
  · simp [h]

/-! ### The shape of a step -/

theorem runEvent_legal {rule : State → State} {s : State} (h : legalParams s.params = true) :
    runEvent rule s = .next (settle (rule s)) := by simp [runEvent, h]

theorem runAccess_legal {addr : Addr} {rule : State → State} {s : State} (h : legalParams s.params = true)
    (ha : addr.toNat % 4 = 0) : runAccess addr rule s = .next (settle (rule s)) := by
  simp [runAccess, h, wordAligned, ha]

/-- An event answers a next state only on a legal instance, and it is then the settled result of its rule (R20). -/
theorem runEvent_next {rule : State → State} {s t : State} (h : runEvent rule s = .next t) :
    legalParams s.params = true ∧ t = settle (rule s) := by
  unfold runEvent at h
  split at h
  · rename_i hl; injection h with h; exact ⟨hl, h.symm⟩
  · cases h

/-- So does a register access, at a word-aligned offset (R74). -/
theorem runAccess_next {addr : Addr} {rule : State → State} {s t : State} (h : runAccess addr rule s = .next t) :
    legalParams s.params = true ∧ addr.toNat % 4 = 0 ∧ t = settle (rule s) := by
  unfold runAccess at h
  split at h
  · rename_i hl
    split at h
    · rename_i ha; injection h with h
      exact ⟨hl, by simpa [wordAligned] using ha, h.symm⟩
    · cases h
  · cases h

end Sys2Proof.Machine
end

