-- ==== Sys2Proof/Laws/PerInstr.lean ====
section
/-! SUPPORT. Facts about instructions as syntax, one lemma per constructor. -/

namespace Sys2Proof.Laws.DecodesBack

/-- The encoding of a well-formed instruction decodes to it. -/
def Statement (i : Instr) : Prop := i.wellFormed = true → decode (encode i) = .instr i

theorem cmdWrite_decodes (w : Word) : decode (cmdWrite w) = .instr (decodeCommand w) := rfl

theorem nop : Statement .nop := fun _ => rfl

theorem init : Statement .init := fun _ => rfl

theorem fetch : Statement .fetch := fun _ => rfl

theorem get (chan : BitVec 4) : Statement (.get chan) := fun _ => by
  show decode (cmdWrite (commandWord chan 0x3)) = _
  rw [cmdWrite_decodes]
  revert chan; decide

theorem reservedLow (op : BitVec 2) : Statement (.reservedLow op) := fun _ => by
  show decode (cmdWrite (commandWord 0 ((1 : BitVec 2) ++ op))) = _
  rw [cmdWrite_decodes]
  revert op; decide

theorem reservedHigh (op : BitVec 3) : Statement (.reservedHigh op) := fun _ => by
  show decode (cmdWrite (commandWord 0 ((1 : BitVec 1) ++ op))) = _
  rw [cmdWrite_decodes]
  revert op; decide

theorem reset : Statement .reset := fun _ => rfl

theorem regWrite (addr : Addr) (v : Word) : Statement (.regWrite addr v) := fun h => by
  simp only [Instr.wellFormed, Bool.and_eq_true, bne_iff_ne] at h
  simp [encode, decode, decodeAccess, h.1, h.2]

theorem regRead (addr : Addr) : Statement (.regRead addr) := fun h => by
  simp only [Instr.wellFormed] at h
  simp [encode, decode, decodeAccess, h]

theorem rxByte (b : Byte) : Statement (.rxByte b) := fun _ => rfl

theorem canRx (ide rtr : Bool) (id : CanId) (dlc : BitVec 4) (data : CanData) :
    Statement (.canRx ide rtr id dlc data) := fun _ => rfl

theorem tick : Statement .tick := fun _ => rfl

theorem txDone (ok : Bool) : Statement (.txDone ok) := fun _ => rfl

theorem initDone (ok : Bool) : Statement (.initDone ok) := fun _ => rfl

end Sys2Proof.Laws.DecodesBack
end

