-- ==== Sys2Proof/Laws/Step.lean ====
section
/-! SUPPORT. What exec can do, said once: a next state is the settled result of the instruction's rule. -/

namespace Sys2Proof.Machine

/-- The rule of each instruction, without settle. -/
def ruleOf : Instr → State → State
  | .nop => nopRule
  | .init => initRule
  | .fetch => fetchRule
  | .get chan => getRule chan
  | .reservedLow _ => reservedRule
  | .reservedHigh _ => reservedRule
  | .reset => resetRule
  | .regWrite addr v => regWriteRule addr v
  | .regRead addr => regReadRule addr
  | .rxByte b => rxByteRule b
  | .canRx ide rtr id dlc data => canRxRule ide rtr id dlc data
  | .tick => tickRule
  | .txDone ok => txDoneRule ok
  | .initDone ok => initDoneRule ok

/-- A next state comes from a legal instance and is the settled result of the rule. -/
theorem exec_next {i : Instr} {s t : State} (h : exec i s = .next t) :
    legalParams s.params = true ∧ t = settle (ruleOf i s) := by
  cases i
  case regWrite addr v => exact ⟨(runAccess_next h).1, (runAccess_next h).2.2⟩
  case regRead addr => exact ⟨(runAccess_next h).1, (runAccess_next h).2.2⟩
  all_goals exact runEvent_next h

/-- A well-formed instruction of a legal instance has that next state. -/
theorem exec_of_legal {i : Instr} {s : State} (hl : legalParams s.params = true) (hw : i.wellFormed = true) :
    exec i s = .next (settle (ruleOf i s)) := by
  cases i
  case regWrite addr v =>
    exact runAccess_legal hl (by simp [Instr.wellFormed, wordAligned] at hw; exact hw.1)
  case regRead addr => exact runAccess_legal hl (by simpa [Instr.wellFormed, wordAligned] using hw)
  all_goals exact runEvent_legal hl

/-- Settle always leaves a settled state (R183). -/
theorem settle_settled (s : State) : (settle s).Settled := by
  intro hw
  obtain ⟨h, e⟩ | ⟨_, _, e⟩ | ⟨_, _, _, e⟩ | ⟨_, ha, ht, e⟩ := settle_cases s
  · rw [e] at hw; exact absurd hw h
  · rw [e] at hw; simp at hw
  · rw [e] at hw; simp at hw
  · rw [e]; exact ⟨ha, ht⟩

/-- Settle changes nothing in a settled state (R183). -/
theorem settle_of_settled {s : State} (h : s.Settled) : settle s = s := by
  obtain ⟨_, e⟩ | ⟨hw, ha, _⟩ | ⟨hw, _, ht, _⟩ | ⟨_, _, _, e⟩ := settle_cases s
  · exact e
  · simp [(h hw).1] at ha
  · exact absurd ht (BitVec.not_le.2 (h hw).2)
  · exact e

/-- A rule that leaves what settle looks at leaves a settled state settled. -/
theorem settled_congr {s t : State} (h : s.Settled) (h1 : t.state = s.state) (h2 : t.stage = s.stage)
    (h3 : t.canPend = s.canPend) (h4 : t.tcnt = s.tcnt) (h5 : t.timeout = s.timeout)
    (h6 : t.params = s.params) : t.Settled := by
  intro hw
  have := h (h1 ▸ hw)
  simpa [arrived, h2, h3, h4, h5, h6] using this

/-- So does leaving WAITING. -/
theorem settled_of_not_waiting {s : State} (h : s.state ≠ .waiting) : s.Settled := fun hw => absurd hw h

/-! ### Runs -/

theorem execAll_append (is js : List Instr) (s t : State) (h : execAll is s = .next t) :
    execAll (is ++ js) s = execAll js t := by
  induction is generalizing s with
  | nil => simp only [execAll] at h; injection h with h; simp [h]
  | cons i is ih =>
    simp only [execAll, List.cons_append] at h ⊢
    split at h
    · rename_i u hu; exact ih u h
    · cases h
    · cases h

theorem completions_append (bs cs : List Byte) (s t : State) (h : execAll (rxBytes bs) s = .next t) :
    completions (bs ++ cs) s = completions bs s + completions cs t := by
  induction bs generalizing s with
  | nil => simp only [rxBytes, List.map_nil, execAll] at h; injection h with h; simp [h, completions]
  | cons b bs ih =>
    simp only [rxBytes, List.map_cons, execAll, List.cons_append, completions] at h ⊢
    split at h
    · rename_i u hu; rw [ih u h]; omega
    · cases h
    · cases h

end Sys2Proof.Machine
end

