-- ==== Sys2Proof/Tests/Slice0.lean ====
section
/-! SUPPORT. The model's own tests, on values worked out in spec/95_test_vectors.md (the vector's name stands at each), and
for every statement with hypotheses concrete states and operands that meet them. -/

namespace Sys2Proof.Tests

open Sys2Proof.Machine

/-! ### States and frames of 95_test_vectors.md -/

/-- A buffer that begins with these bytes and is zero after them. -/
def bufOf (bs : List Byte) : Buf := Vector.ofFn fun i => bs.getD i.val 0

/-- Frame F. -/
def frameF : List Byte := [0x57, 0, 0, 0xE8, 3, 0, 0, 0xDC, 5, 0, 0, 0x32, 0, 0, 0, 0x55]

/-- Frame F′. -/
def frameFBad : List Byte := [0x57, 0, 0, 0xE8, 3, 0, 0, 0xDC, 5, 0, 0, 0x32, 0, 0, 0, 0x56]

/-- READY() of an instance. -/
def ready (p : Params) : State := { State.resetOf p with life := .ready, cres := .ok }

/-- REFCAN, ready with the reference configuration. -/
def readyCan : State := { ready refCan with devId := 0x01, hostId := 0x40, dataId := 0x90 }

/-- A FETCH that waits, with nothing staged. -/
def waiting (p : Params) (tcnt timeout : Word) : State :=
  { ready p with state := .waiting, cres := .none, tcnt := tcnt, timeout := timeout }

/-- A query-mode FETCH whose request is being sent. -/
def sending (p : Params) : State := { ready p with mode := .query, state := .sending, cres := .none }

/-- An INIT that has not been answered. -/
def initing (p : Params) : State := { State.resetOf p with state := .initing }

/-- A device whose INIT failed. -/
def dead (p : Params) : State := { State.resetOf p with life := .dead, cres := .transportUnavailable }

/-- The outcome is a next state that passes a check. -/
def nextIs (o : Host.Outcome State Fault Refusal) (p : State → Bool) : Bool :=
  match o with
  | .next t => p t
  | .fault _ => false
  | .refused _ => false

/-- The outcome is that refusal. -/
def refusedWith (o : Host.Outcome State Fault Refusal) (r : Refusal) : Bool :=
  match o with
  | .next _ => false
  | .fault _ => false
  | .refused r' => r' == r

/-! ### Well-formedness, a bad term for each check -/

theorem test_wf_regWrite_misaligned : (Instr.regWrite 0x06 1).wellFormed = false := by decide

theorem test_wf_regWrite_cmd : (Instr.regWrite 0x0C 2).wellFormed = false := by decide

theorem test_wf_regRead_misaligned : (Instr.regRead 0x02).wellFormed = false := by decide

theorem test_wf_good : (Instr.regWrite 0xFC 7).wellFormed = true ∧ (Instr.regRead 0x0C).wellFormed = true := by decide

/-! ### Decoding: the words of 30_encoding.md R93, the events of R91 and the lines of R108 -/

/-- OP = 0000. -/
theorem test_decode_nop : decode (.regWrite 4 0x0C 0x00000000) = .instr .nop := by decide

/-- OP = 0001. -/
theorem test_decode_init : decode (.regWrite 4 0x0C 0x00000001) = .instr .init := by decide

/-- OP = 0010 under bits that are ignored (H14). -/
theorem test_decode_fetch : decode (.regWrite 4 0x0C 0xABCDEF02) = .instr .fetch := by decide

/-- CHAN = 1001, OP = 0011. -/
theorem test_decode_get : decode (.regWrite 4 0x0C 0x00000093) = .instr (.get 9) := by decide

/-- OP = 0100 and OP = 0111, the ends of the row. -/
theorem test_decode_reservedLow :
    decode (.regWrite 4 0x0C 0xFFFFFF04) = .instr (.reservedLow 0) ∧
    decode (.regWrite 4 0x0C 0x00000007) = .instr (.reservedLow 3) := by decide

/-- OP = 1000 and OP = 1111, the ends of the row. -/
theorem test_decode_reservedHigh :
    decode (.regWrite 4 0x0C 0x00000008) = .instr (.reservedHigh 0) ∧
    decode (.regWrite 4 0x0C 0x0000000F) = .instr (.reservedHigh 7) := by decide

theorem test_decode_reset : decode .reset = .instr .reset := by decide

/-- `WR DEVCFG, 0x18904001`. -/
theorem test_decode_regWrite : decode (.regWrite 4 0x04 0x18904001) = .instr (.regWrite 0x04 0x18904001) := by decide

/-- `RD STATUS`. -/
theorem test_decode_regRead : decode (.regRead 4 0x10) = .instr (.regRead 0x10) := by decide

theorem test_decode_rxByte : decode (.rxByte 0x57) = .instr (.rxByte 0x57) := by decide

/-- `CANRX.RTR 0x18904001, 8`. -/
theorem test_decode_canRx :
    decode (.canRx true true 0x18904001 8 #v[0, 0, 0, 0, 0, 0, 0, 0]) =
      .instr (.canRx true true 0x18904001 8 #v[0, 0, 0, 0, 0, 0, 0, 0]) := by decide

theorem test_decode_tick : decode .tick = .instr .tick := by decide

theorem test_decode_txDone : decode (.txDone false) = .instr (.txDone false) := by decide

theorem test_decode_initDone : decode (.initDone true) = .instr (.initDone true) := by decide

/-- R74: a 16-bit access, and a word access at offset 2. -/
theorem test_decode_rejects :
    decode (.regRead 2 0x10) = .rejected .accessWidth ∧ decode (.regRead 4 0x02) = .rejected .misaligned := by decide

/-- The table's words, eight bits of one among them. -/
theorem test_decode_table_word :
    decodeTableWord 32 0x00000003 = some (.get 0) ∧ decodeTableWord 32 0x00000008 = some (.reservedHigh 0) ∧
    decodeTableWord 8 0x33 = some (.get 3) := by decide

/-! ### Operations -/

/-- K2, K3, K8. -/
theorem test_checksum :
    checksum [0x57, 0x99] 2 = 0x57 ∧ checksum [0xFF, 0xFF, 0xFF, 0] 4 = 0xFD ∧ checksum [0x12] 1 = 0 := by decide

/-- K4, K7 and W6. -/
theorem test_validate :
    validate (List.replicate 16 0) 16 = true ∧ validate frameF 16 = true ∧ validate frameFBad 16 = false := by decide

/-- K6: two errors that cancel are not seen. -/
theorem test_validate_misses_cancelling_errors :
    validate [0x57, 0, 0, 0xE8, 3, 0, 0, 0xDD, 4, 0, 0, 0x32, 0, 0, 0, 0x55] 16 = true := by decide

/-- W5: the query frame for DEV_ID 1. -/
theorem test_query_frame :
    queryFrame { ready ref16 with devId := 1 } = [0x57, 0x10, 0x01, 0xFF, 0xFF, 0xFF, 0xFF, 0x64] := by decide

/-- W10, with a priority that is masked. -/
theorem test_canid :
    canid 0x18 0x90 0x01 0x40 = 0x18900140 ∧ canid 0xFF 0x90 0x01 0x40 = 0x1F900140 := by decide

/-- Q10 to Q13: one byte signed, four bytes with the sign ignored, two bytes signed in both orders. -/
theorem test_field_sign_and_order :
    let b := bufOf [0x57, 0x80, 0xFF, 0x7F, 0, 0, 0, 0x55]
    field b ⟨true, 1, 1, false, true⟩ = 0xFFFFFF80 ∧ field b ⟨true, 1, 4, false, true⟩ = 0x007FFF80 ∧
    field b ⟨true, 1, 2, true, true⟩ = 0xFFFF80FF ∧ field b ⟨true, 1, 2, false, true⟩ = 0xFFFFFF80 := by decide +kernel

/-! ### One step per instruction -/

/-- H11. -/
theorem test_nop : nextIs (exec .nop { ready ref16 with cmderr := true }) (fun t => t.cmderr == false) = true := by
  decide +kernel

/-- I1 and I8. -/
theorem test_init :
    nextIs (exec .init (State.resetOf ref16)) (fun t => readReg 0x10 t == 0x00000001 && t.outputs == [.initReq]) = true ∧
    nextIs (exec .init (State.resetOf refCan)) (fun t => readReg 0x10 t == 0x00004001) = true := by decide +kernel

/-- I4 and I7. -/
theorem test_init_dropped :
    nextIs (exec .init (initing ref16)) (fun t => readReg 0x10 t == 0x00002001) = true ∧
    nextIs (exec .init (dead ref16)) (fun t => readReg 0x10 t == 0x00002058) = true := by decide +kernel

/-- O1, and line 7 of P1. -/
theorem test_fetch :
    nextIs (exec .fetch (ready ref16)) (fun t => readReg 0x10 t == 0x00000024) = true ∧
    nextIs (exec .fetch { ready ref16 with mode := .query }) (fun t => readReg 0x10 t == 0x00000006 &&
      t.outputs == [.txUart [0x57, 0x10, 0, 0xFF, 0xFF, 0xFF, 0xFF, 0x63]]) = true := by decide +kernel

/-- W1 and W2: a staged frame ends the FETCH at once, and a bad one leaves MEAS. -/
theorem test_fetch_staged :
    nextIs (exec .fetch { ready ref16 with stage := bufOf frameF })
      (fun t => readReg 0x10 t == 0x00000014 && t.meas == bufOf frameF && t.stage == zeroBuf) = true ∧
    nextIs (exec .fetch { ready ref16 with stage := bufOf frameFBad, meas := bufOf frameF, gres := .ok })
      (fun t => readReg 0x10 t == 0x00001134 && t.meas == bufOf frameF) = true := by decide +kernel

/-- Q2, and line 24 of P3. -/
theorem test_get :
    nextIs (exec (.get 0) { ready ref16 with meas := bufOf frameF }) (fun t => t.getval == 0x000005DC && t.gres == .ok)
      = true ∧
    nextIs (exec (.get 2) { readyCan with meas := bufOf [0x14, 0x6E, 0, 0, 0xFF, 0x38, 3, 0xE8] })
      (fun t => t.getval == 0xFFFFFF38) = true := by decide +kernel

/-- Line 27 of P3, and line 3 of P4. -/
theorem test_get_fails :
    nextIs (exec (.get 5) { readyCan with getval := 0x146E0000 })
      (fun t => t.getval == 0x146E0000 && readReg 0x10 t == 0x00004414) = true ∧
    nextIs (exec (.get 0) (State.resetOf ref16)) (fun t => readReg 0x10 t == 0x00000500) = true := by decide +kernel

/-- H13. -/
theorem test_reservedLow : nextIs (exec (.reservedLow 0) (ready ref16)) (fun t => readReg 0x10 t == 0x00002014) = true := by
  decide +kernel

/-- H12. -/
theorem test_reservedHigh : nextIs (exec (.reservedHigh 7) (ready ref16)) (fun t => readReg 0x10 t == 0x00002014) = true := by
  decide +kernel

/-- Z1 and Z5. -/
theorem test_reset :
    nextIs (exec .reset { dead ref16 with prio := 0, devId := 7, idx := 5, acc := bufOf [0x57, 1, 2, 3, 4] })
      (fun t => readReg 0x04 t == 0x18000000 && readReg 0x10 t == 0 && t.idx == 0 && t.acc == zeroBuf) = true := by
  decide +kernel

/-- H1 and H2. -/
theorem test_regWrite :
    nextIs (exec (.regWrite 0x04 0xFF904001) (State.resetOf ref16)) (fun t => readReg 0x04 t == 0x1F904001) = true ∧
    nextIs (exec (.regWrite 0x00 0xFFFFFFFF) (State.resetOf ref16)) (fun t => readReg 0x00 t == 0x00000001) = true := by
  decide +kernel

/-- H10 and H4. -/
theorem test_regWrite_ignored :
    nextIs (exec (.regWrite 0x04 0x12345678) (ready ref16)) (fun t => readReg 0x04 t == 0x18000000 && t.cmderr == false)
      = true ∧
    nextIs (exec (.regWrite 0x10 0xFFFFFFFF) (State.resetOf ref16)) (fun t => readReg 0x10 t == 0) = true := by
  decide +kernel

/-- H8 and H16. -/
theorem test_regRead :
    nextIs (exec (.regRead 0x20) (ready ref16)) (fun t => t.readReturns == [0x10085710]) = true ∧
    nextIs (exec (.regRead 0x40) { ready ref16 with stage := bufOf frameF }) (fun t => t.readReturns == [0xE8000057])
      = true := by decide +kernel

/-- H9 and H16, STAGE_W3. -/
theorem test_regRead_more :
    nextIs (exec (.regRead 0x20) readyCan) (fun t => t.readReturns == [0x00000008]) = true ∧
    nextIs (exec (.regRead 0x4C) { ready ref16 with stage := bufOf frameF }) (fun t => t.readReturns == [0x55000000])
      = true := by decide +kernel

/-- S1 and S2. -/
theorem test_rxByte :
    nextIs (exec (.rxByte 0x57) (ready ref16)) (fun t => t.idx == 1 && byteAt t.acc 0 == 0x57) = true ∧
    nextIs (exec (.rxByte 0x12) (ready ref16)) (fun t => t.idx == 0 && t.acc == zeroBuf) = true := by decide +kernel

/-- S4, its last byte, and O4, its last byte. -/
theorem test_rxByte_last :
    nextIs (exec (.rxByte 0x55) { ready ref16 with idx := 15, acc := bufOf (frameF.take 15) })
      (fun t => readReg 0x10 t == 0x00001014 && t.stage == bufOf frameF && t.acc == zeroBuf) = true ∧
    nextIs (exec (.rxByte 0x55) { waiting ref16 2 3 with idx := 15, acc := bufOf (frameF.take 15) })
      (fun t => readReg 0x10 t == 0x00000014 && t.meas == bufOf frameF && t.tcnt == 2) = true := by decide +kernel

/-- N2 and N1 while a FETCH waits (O14 by arrival). -/
theorem test_canRx :
    nextIs (exec (.canRx true false 0x1C904001 8 #v[1, 2, 3, 4, 5, 6, 7, 8]) readyCan)
      (fun t => readReg 0x40 t == 0x04030201 && readReg 0x44 t == 0x08070605 && readReg 0x24 t == 0x1C904001
        && t.canPend) = true ∧
    nextIs (exec (.canRx true false 0x18904001 8 #v[1, 2, 3, 4, 5, 6, 7, 8])
        { readyCan with state := .waiting, cres := .none, timeout := 10 })
      (fun t => readReg 0x80 t == 0x04030201 && readReg 0x28 t == 0x18904001 && readReg 0x10 t == 0x00004014) = true := by
  decide +kernel

/-- N6 and N9. -/
theorem test_canRx_rejected :
    nextIs (exec (.canRx true false 0x18900140 8 #v[1, 2, 3, 4, 5, 6, 7, 8]) readyCan) (fun t => t == readyCan) = true ∧
    nextIs (exec (.canRx true false 0x18904001 7 #v[1, 2, 3, 4, 5, 6, 7, 8]) readyCan) (fun t => t == readyCan)
      = true := by decide +kernel

/-- O3: the third TICK. -/
theorem test_tick :
    nextIs (exec .tick (waiting ref16 1 3)) (fun t => readReg 0x10 t == 0x00000007 && t.tcnt == 2) = true ∧
    nextIs (exec .tick (waiting ref16 2 3)) (fun t => readReg 0x10 t == 0x00000024 && t.tcnt == 3) = true := by
  decide +kernel

/-- O6: no count in SENDING. -/
theorem test_tick_sending : nextIs (exec .tick (sending ref16)) (fun t => t.tcnt == 0 && readReg 0x10 t == 0x00000006) = true := by
  decide +kernel

/-- O7, and O2: arrival is tested before the timeout. -/
theorem test_txDone :
    nextIs (exec (.txDone false) (sending ref16)) (fun t => readReg 0x10 t == 0x00000064) = true ∧
    nextIs (exec (.txDone true) { sending ref16 with stage := bufOf frameF })
      (fun t => readReg 0x10 t == 0x00000014 && t.meas == bufOf frameF) = true := by decide +kernel

/-- I2 and I3. -/
theorem test_initDone :
    nextIs (exec (.initDone true) (initing ref16)) (fun t => readReg 0x10 t == 0x00000014) = true ∧
    nextIs (exec (.initDone false) (initing ref16)) (fun t => readReg 0x10 t == 0x00000058) = true := by decide +kernel

/-- H15, by step; no event left (log entry 3); and a word of the table as the first instruction after reset. -/
theorem test_step :
    refusedWith (step { ready ref16 with inbox := [.regRead 4 0x02] }) .misalignedAccess = true ∧
    refusedWith (step { ready ref16 with inbox := [.regWrite 2 0x0C 1] }) .accessWidth = true ∧
    refusedWith (step State.reset) .noEvent = true ∧
    nextIs (step (State.reset.withFetchWord 32 0x00000001)) (fun t => readReg 0x10 t == 0x00000001) = true := by
  decide +kernel

/-! ### Witnesses: states and operands that meet the hypotheses of the statements -/

/-- A decidable form of the invariant, for concrete states. -/
def invCheck (s : State) : Bool :=
  legalParams s.params && decide (s.idx.toNat < frameLen s.params)
    && decide (∀ i : Fin 64, s.idx.toNat ≤ i.val → byteAt s.acc i.val = 0)
    && decide (0 < s.idx.toNat → byteAt s.acc 0 = s.params.hdr)
    && decide (∀ i : Fin 64, frameLen s.params ≤ i.val → byteAt s.stage i.val = 0)
    && decide (arrived s = false → s.stage = zeroBuf)
    && decide (∀ i : Fin 64, frameLen s.params ≤ i.val → byteAt s.meas i.val = 0)
    && decide (s.params.xport = .uart → s.meas = zeroBuf ∨
        (byteAt s.meas 0 = s.params.hdr ∧ validate s.meas.toList s.params.len = true))
    && decide (s.params.xport = .uart → s.canPend = false ∧ s.stageCanId = 0 ∧ s.measCanId = 0)
    && decide (s.params.xport = .can → s.idx = 0)
    && decide (s.canPend = false → s.stageCanId = 0)
    && decide (s.tcnt ≤ s.timeout)
    && decide (s.state = .waiting → arrived s = false ∧ s.tcnt < s.timeout)
    && decide (s.life ≠ .ready →
        s.idx = 0 ∧ s.stage = zeroBuf ∧ s.canPend = false ∧ s.meas = zeroBuf ∧ s.measCanId = 0 ∧ s.tcnt = 0)
    && decide (s.state = .initing → s.life = .uninit)
    && decide (s.state = .sending → s.life = .ready ∧ s.mode = .query)
    && decide (s.state = .waiting → s.life = .ready)
    && decide (s.life = .dead → s.state = .idle ∧ s.cres = .transportUnavailable)
    && decide (s.state ≠ .idle → s.cres = .none)
    && decide (s.state = .idle → s.life = .ready → s.cres ≠ .none)
    && decide (s.cres ≠ .unsupportedChannel)
    && decide (s.params.xport = .can → s.cres ≠ .malformedFrame)
    && decide (s.gres = .none ∨ s.gres = .ok ∨ s.gres = .unsupportedChannel ∨ s.gres = .transportUnavailable)

/-- Bytes below 64 are all there is to check. -/
theorem byteAt_zero_of_lt {b : Buf} {P : Nat → Prop} (h : ∀ i : Fin 64, P i.val → byteAt b i.val = 0) (i : Nat) (hp : P i) :
    byteAt b i = 0 := by
  by_cases hi : i < 64
  · exact h ⟨i, hi⟩ hp
  · exact byteAt_of_ge b (Nat.not_lt.1 hi)

theorem inv_of_check {s : State} (h : invCheck s = true) : s.Inv := by
  simp only [invCheck, Bool.and_eq_true, decide_eq_true_eq] at h
  obtain ⟨⟨⟨⟨⟨⟨⟨⟨⟨⟨⟨⟨⟨⟨⟨⟨⟨⟨⟨⟨⟨⟨a1, a2⟩, a3⟩, a4⟩, a5⟩, a6⟩, a7⟩, a8⟩, a9⟩, a10⟩, a11⟩, a12⟩, a13⟩, a14⟩, a15⟩,
    a16⟩, a17⟩, a18⟩, a19⟩, a20⟩, a21⟩, a22⟩, a23⟩ := h
  exact ⟨a1, a2, byteAt_zero_of_lt (P := (s.idx.toNat ≤ ·)) a3, a4, byteAt_zero_of_lt (P := (frameLen s.params ≤ ·)) a5,
    a6, byteAt_zero_of_lt (P := (frameLen s.params ≤ ·)) a7, a8, a9, a10, a11, a12, a13, a14, a15, a16, a17, a18, a19, a20, a21, a22, a23⟩

/-- Any state outside WAITING is settled; this is the one shape the witnesses below need. -/
theorem settled_idle (s : State) (h : s.state ≠ .waiting := by decide) : s.Settled := settled_of_not_waiting h

theorem witness_DecodeOfEncodeIsTheInstruction :
    (Instr.regWrite 0xFC 7).wellFormed = true ∧ (Instr.regRead 0x0C).wellFormed = true ∧
    (Instr.get 15).wellFormed = true := by decide

theorem witness_CommandIgnoresReservedBitsAndUnusedChan :
    (0xABCDEF02 : Word).toNat % 16 = (0x00000002 : Word).toNat % 16 ∧ (0xABCDEF02 : Word).toNat % 16 ≠ 3 ∧
    (0xFFFFFFF3 : Word).toNat % 16 = (0x000000F3 : Word).toNat % 16 ∧
    (0xFFFFFFF3 : Word).toNat / 16 % 16 = (0x000000F3 : Word).toNat / 16 % 16 := by decide

theorem witness_CommandWordDecodesByItsOpField :
    (0xFFFFFFF0 : Word).toNat % 16 = 0 ∧ (0xFFFFFFF1 : Word).toNat % 16 = 1 ∧ (0xFFFFFFF2 : Word).toNat % 16 = 2 ∧
    (0xFFFFFFF3 : Word).toNat % 16 = 3 ∧ (0xFFFFFFF4 : Word).toNat % 16 = 4 ∧ (0xFFFFFFF7 : Word).toNat % 16 = 7 ∧
    (0xFFFFFFF8 : Word).toNat % 16 = 8 ∧ (0xFFFFFFFF : Word).toNat % 16 = 15 := by decide

theorem witness_AccessOfOtherWidthOrOffsetIsRefused :
    { ready ref16 with inbox := [.regWrite 2 0x0C 1] }.inbox = [.regWrite 2 0x0C 1] ∧
    { ready ref16 with inbox := [.regRead 4 0xFE] }.inbox = [.regRead 4 0xFE] ∧ (0xFE : Addr).toNat % 4 ≠ 0 ∧
    legalParams (ready ref16).params = true := by decide

theorem witness_StepRunsTheDecodedEvent :
    { ready ref16 with inbox := [.tick, .reset] }.inbox = .tick :: [.reset] ∧ decode .tick = .instr .tick := by decide

theorem witness_StepWithoutEventIsRefused : State.reset.inbox = [] := by decide

theorem witness_RunOfStepsIsTheRunOfItsInstructions :
    (∀ i ∈ [Instr.init, .initDone true], i.wellFormed = true) ∧
    { State.reset with inbox := [cmdWrite 1, .initDone true, .tick] }.inbox =
      [Instr.init, .initDone true].map encode ++ [.tick] := by decide

/-- Both sides: an instance whose frame is one byte too long, and the reference instance. -/
theorem witness_IllegalInstanceIsRefused :
    refusedWith (exec .nop { ready ref16 with params := { ref16 with len := 65 } }) .illegalInstance = true ∧
    nextIs (exec .nop (ready ref16)) (fun _ => true) = true := by decide +kernel

theorem witness_EveryEventHasAnEffectButRefusedAccesses :
    legalParams (ready ref16).params = true ∧ { ready ref16 with inbox := [.regRead 4 0x10] }.inbox = .regRead 4 0x10 :: [] ∧
    { ready ref16 with inbox := [.regRead 1 0x10] }.inbox = .regRead 1 0x10 :: [] := by decide

theorem witness_ParametersAndInboxAreNeverWritten : ∃ t, exec .reset State.reset = .next t :=
  ⟨_, exec_of_legal (by decide) rfl⟩

/-- Serves NopClearsCmderrOnly, ReservedCommandsSetCmderrOnly, StatusShowsItsFields and ResetWritesEveryElement; with the
words of NOP, INIT and GET 9 and the ends of the reserved codes. -/
theorem witness_legal_settled :
    legalParams (waiting ref16 2 3).params = true ∧ (waiting ref16 2 3).Settled ∧
    (0xFFFFFFF0 : Word).toNat % 16 = 0 ∧ (0xFFFFFFF1 : Word).toNat % 16 = 1 ∧
    ((0xFFFFFF93 : Word).toNat % 16 = 3 ∧ (0xFFFFFF93 : Word).toNat / 16 % 16 = (9 : BitVec 4).toNat) ∧
    4 ≤ (0x00000004 : Word).toNat % 16 ∧ 4 ≤ (0xFFFFFFFF : Word).toNat % 16 := by
  unfold State.Settled; decide +kernel

theorem witness_InitIsAcceptedOrDropped :
    (legalParams State.reset.params = true ∧ State.reset.life = .uninit ∧ State.reset.state = .idle) ∧
    ((ready ref16).life ≠ .uninit ∧ (ready ref16).Settled) ∧ ((initing ref16).state ≠ .idle ∧ (initing ref16).Settled) :=
  ⟨by decide, ⟨by decide, settled_idle _⟩, by decide, settled_idle _⟩

theorem witness_FetchFollowsItsRule :
    ((sending ref16).state ≠ .idle ∧ (sending ref16).Settled) ∧
    ((dead ref16).state = .idle ∧ (dead ref16).life ≠ .ready) ∧
    ({ ready ref16 with mode := .query }.state = .idle ∧ { ready ref16 with mode := .query }.life = .ready) ∧
    ((ready ref16).state = .idle ∧ (ready ref16).life = .ready ∧ (ready ref16).mode = .active) ∧
    legalParams ref16 = true ∧ (0xABCDEF02 : Word).toNat % 16 = 2 :=
  ⟨⟨by decide, settled_idle _⟩, by decide, by decide, by decide, by decide, by decide⟩

/-- Positions 3 and QLEN - 2, the ends of the fill, and both transports. -/
theorem witness_RequestFrameContents :
    legalParams (ready ref16).params = true ∧ (ready ref16).params.xport = .uart ∧ 3 + 2 ≤ ref16.qlen ∧ 6 + 2 ≤ ref16.qlen ∧
    legalParams readyCan.params = true ∧ readyCan.params.xport = .can := by decide

theorem witness_GetReadsOneChannelOfMeas :
    legalParams ref16 = true ∧ State.reset.Settled ∧ State.reset.life ≠ .ready ∧
    (ready ref16).Settled ∧ (ready ref16).life = .ready ∧
    ((ready ref16).params.chdesc.toList.getD (15 : BitVec 4).toNat .unsupported).valid = false ∧
    ((ready ref16).params.chdesc.toList.getD (4 : BitVec 4).toNat .unsupported).valid = true :=
  ⟨by decide, settled_idle _, by decide, settled_idle _, by decide, by decide, by decide⟩

theorem witness_GetReadsZeroWhileMeasIsZero :
    legalParams ref16 = true ∧ (ready ref16).Settled ∧ (ready ref16).life = .ready ∧
    (ready ref16).meas = Vector.replicate 64 0 ∧
    ((ready ref16).params.chdesc.toList.getD (0 : BitVec 4).toNat .unsupported).valid = true :=
  ⟨by decide, settled_idle _, by decide, rfl, by decide⟩

/-- Fields of 1 and of 4 bytes, unsigned and signed. -/
theorem witness_FieldAssemblesBytesInOrderAndExtends :
    let d1 : ChanDesc := ⟨true, 63, 1, true, false⟩
    let d4 : ChanDesc := ⟨true, 60, 4, false, true⟩
    let d3 : ChanDesc := ⟨true, 0, 3, true, true⟩
    (1 ≤ d1.n.val ∧ d1.n.val ≤ 4 ∧ d1.sgn = false) ∧ (1 ≤ d4.n.val ∧ d4.n.val ≤ 4 ∧ d4.n.val = 4) ∧
    (1 ≤ d3.n.val ∧ d3.sgn = true ∧ d3.n.val < 4) := by decide

theorem witness_RegReadReturnsAndChangesNothing :
    legalParams (ready ref16).params = true ∧ (ready ref16).Settled ∧ (0xFC : Addr).toNat % 4 = 0 ∧
    (0x00 : Addr).toNat % 4 = 0 := ⟨by decide, settled_idle _, by decide, by decide⟩

/-- Serves RegistersShowTheirElements too: the first and the last word of a window. -/
theorem witness_ConfigIsWrittenOnlyBeforeInit :
    (legalParams State.reset.params = true ∧ State.reset.life = .uninit ∧ State.reset.state = .idle) ∧
    ((ready ref16).life ≠ .uninit ∧ (ready ref16).Settled) ∧ ((initing ref16).state ≠ .idle ∧ (initing ref16).Settled) ∧
    (0 < 16 ∧ 15 < 16) :=
  ⟨by decide, ⟨by decide, settled_idle _⟩, ⟨by decide, settled_idle _⟩, by decide⟩

/-- The ends of both holes of the map, read-only registers, and writes that differ in ignored bits only. -/
theorem witness_UnmappedReadOnlyAndReservedReadZeroAndIgnoreWrites :
    legalParams (ready ref16).params = true ∧ (ready ref16).Settled ∧
    unmapped 0x2C ∧ unmapped 0x3C ∧ unmapped 0xC0 ∧ unmapped 0xFC ∧
    ((0x10 : Addr).toNat % 4 = 0 ∧ (0x10 : Addr) ≠ 0x00 ∧ (0x10 : Addr) ≠ 0x04 ∧ (0x10 : Addr) ≠ 0x08 ∧
      (0x10 : Addr) ≠ 0x0C) ∧
    (0xFFFFFFFF : Word).toNat % 2 = (1 : Word).toNat % 2 ∧
    (0xFF904001 : Word).toNat % 2 ^ 29 = (0x1F904001 : Word).toNat % 2 ^ 29 ∧
    (0xABCDEF02 : Word).toNat % 2 ^ 8 = (2 : Word).toNat % 2 ^ 8 := by
  refine ⟨by decide, settled_idle _, ?_⟩
  unfold unmapped; decide

/-- A dropped command of each kind (INIT and FETCH while busy, INIT after INIT, OP 4), and accepted ones. -/
theorem witness_CommandIsDecodedThenDroppedOrAccepted :
    legalParams (sending ref16).params = true ∧ (sending ref16).Settled ∧ (sending ref16).state ≠ .idle ∧
    (1 : Word).toNat % 16 = 1 ∧ (2 : Word).toNat % 16 = 2 ∧ (ready ref16).Settled ∧ (ready ref16).life ≠ .uninit ∧
    4 ≤ (4 : Word).toNat % 16 ∧ ¬ 4 ≤ (3 : Word).toNat % 16 ∧ (ready ref16).state = .idle :=
  ⟨by decide, settled_idle _, by decide, by decide, by decide, settled_idle _, by decide, by decide, by decide, by decide⟩

theorem witness_InitDoneEndsInit :
    legalParams (initing ref16).params = true ∧ (initing ref16).state = .initing ∧
    (sending ref16).state ≠ .initing ∧ (sending ref16).Settled := ⟨by decide, by decide, by decide, settled_idle _⟩

theorem witness_TxDoneStartsTheWaitOrFails :
    legalParams (sending ref16).params = true ∧ (sending ref16).state = .sending ∧
    (initing ref16).state ≠ .sending ∧ (initing ref16).Settled := ⟨by decide, by decide, by decide, settled_idle _⟩

theorem witness_UnexpectedReplyIsIgnored :
    legalParams (ready ref16).params = true ∧ (ready ref16).Settled ∧ (ready ref16).state ≠ .sending ∧
    (ready ref16).state ≠ .initing := ⟨by decide, settled_idle _, by decide, by decide⟩

/-- One below TIMEOUT at the top of the counter, at TIMEOUT, and outside WAITING. -/
theorem witness_TickCountsOnlyWhileWaiting :
    legalParams ref16 = true ∧
    ((waiting ref16 0xFFFFFFFE 0xFFFFFFFF).state = .waiting ∧
      (waiting ref16 0xFFFFFFFE 0xFFFFFFFF).tcnt < (waiting ref16 0xFFFFFFFE 0xFFFFFFFF).timeout) ∧
    ((waiting ref16 3 3).state = .waiting ∧ ¬ (waiting ref16 3 3).tcnt < (waiting ref16 3 3).timeout) ∧
    (sending ref16).state ≠ .waiting := by decide

/-- Each clause: a good and a bad staged frame, a pending CAN frame, time up and one tick left. -/
theorem witness_SettleEndsTheWait :
    let good := { waiting ref16 0 3 with stage := bufOf frameF }
    let bad := { waiting ref16 0 3 with stage := bufOf frameFBad }
    let can := { waiting refCan 0 3 with canPend := true }
    (ready ref16).state ≠ .waiting ∧
    (good.state = .waiting ∧ good.params.xport = .uart ∧ byteAt good.stage 0 = good.params.hdr ∧
      ((good.stage.toList.take (good.params.len - 1)).map BitVec.toNat).sum % 256
        = (byteAt good.stage (good.params.len - 1)).toNat) ∧
    (bad.state = .waiting ∧ byteAt bad.stage 0 = bad.params.hdr ∧
      ((bad.stage.toList.take (bad.params.len - 1)).map BitVec.toNat).sum % 256
        ≠ (byteAt bad.stage (bad.params.len - 1)).toNat) ∧
    (can.state = .waiting ∧ can.params.xport = .can ∧ can.canPend = true) ∧
    (byteAt (waiting ref16 3 3).stage 0 ≠ ref16.hdr ∧
      (waiting ref16 3 3).timeout.toNat ≤ (waiting ref16 3 3).tcnt.toNat) ∧
    ((waiting refCan 2 3).canPend = false ∧ (waiting refCan 2 3).tcnt.toNat < (waiting refCan 2 3).timeout.toNat) := by
  decide +kernel

theorem witness_StagedFrameCompletesFetchAtOnce :
    legalParams ref16 = true ∧ legalParams refCan = true ∧
    byteAt { ready ref16 with stage := bufOf frameF }.stage 0 = ref16.hdr ∧
    ((ready ref16).state = .idle ∧ (ready ref16).life = .ready ∧ (ready ref16).mode = .active) ∧
    ((sending refCan).state = .sending ∧ { sending refCan with canPend := true }.canPend = true ∧
      refCan.xport = .can) := by decide +kernel

theorem witness_MalformedFrameStaysStaged :
    let s := { ready ref16 with stage := bufOf frameFBad }
    legalParams s.params = true ∧ s.params.xport = .uart ∧ s.params.clearOnMalformed = false ∧ s.state = .idle ∧
    s.life = .ready ∧ s.mode = .active ∧ byteAt s.stage 0 = s.params.hdr ∧
    validate s.stage.toList s.params.len = false := by decide +kernel

/-- No frame begun, in the middle, at the last byte of the longest frame, and no header. -/
theorem witness_RxByteFollowsTheSynchronizer :
    let long := { ref16 with len := 64 }
    let last := { ready long with idx := 63, acc := bufOf [0x57] }
    (legalParams long = true ∧ last.params.xport = .uart ∧ last.life = .ready ∧ last.idx.toNat < last.params.len ∧
      last.idx.toNat + 1 = last.params.len) ∧
    ({ last with idx := 62 }.idx.toNat ≠ 0 ∧ { last with idx := 62 }.idx.toNat + 1 < 64) ∧
    ((ready ref16).idx.toNat = 0 ∧ (0x12 : Byte) ≠ ref16.hdr ∧ (0x57 : Byte) = ref16.hdr) := by decide +kernel

theorem witness_RxByteIsIgnoredUnlessReadyUart :
    legalParams refCan = true ∧ readyCan.Settled ∧ readyCan.params.xport ≠ .uart ∧
    legalParams ref16 = true ∧ State.reset.Settled ∧ State.reset.life ≠ .ready :=
  ⟨by decide, settled_idle _, by decide, by decide, settled_idle _, by decide⟩

theorem witness_CompletedFrameIsStagedWhole :
    let s := { ready ref16 with idx := 15, acc := bufOf (frameF.take 15) }
    s.Inv ∧ s.params.xport = .uart ∧ s.life = .ready ∧ s.state ≠ .waiting ∧ s.idx.toNat + 1 = s.params.len :=
  ⟨inv_of_check (by decide +kernel), by decide, by decide, by decide, by decide⟩

/-- With a frame in progress and without one. -/
theorem witness_BytesWithoutHeaderEndTheFrameInProgress :
    let s := { ready ref16 with idx := 5, acc := bufOf [0x57, 1, 2, 3, 4] }
    legalParams s.params = true ∧ s.params.xport = .uart ∧ s.life = .ready ∧ s.state ≠ .waiting ∧
    s.idx.toNat < s.params.len ∧ (List.replicate 15 (0x11 : Byte)).length = s.params.len - 1 ∧
    (∀ b ∈ List.replicate 15 (0x11 : Byte), b ≠ s.params.hdr) ∧ s.idx.toNat ≠ 0 ∧ (ready ref16).idx.toNat = 0 := by
  decide +kernel

/-- Serves BackToBackFramesBothComplete too. -/
theorem witness_FrameAfterHeaderlessBytesIsStaged :
    legalParams (ready ref16).params = true ∧ (ready ref16).params.xport = .uart ∧ (ready ref16).life = .ready ∧
    (ready ref16).state ≠ .waiting ∧ (ready ref16).idx = 0 ∧ (∀ b ∈ [(0x12 : Byte), 0x34], b ≠ ref16.hdr) ∧
    frameF.length = ref16.len ∧ frameF.head? = some ref16.hdr := by decide

theorem witness_ValidFrameWhileWaitingBecomesTheMeasurement :
    legalParams (waiting ref16 2 3).params = true ∧ (waiting ref16 2 3).params.xport = .uart ∧
    (waiting ref16 2 3).life = .ready ∧ (waiting ref16 2 3).state = .waiting ∧ (waiting ref16 2 3).Settled ∧
    (waiting ref16 2 3).idx = 0 ∧ (∀ b ∈ [(0x12 : Byte), 0x34], b ≠ ref16.hdr) ∧
    frameF.length = ref16.len ∧ frameF.head? = some ref16.hdr ∧ validate frameF ref16.len = true := by
  unfold State.Settled; decide +kernel

/-- Accepted, and rejected for one wrong bit of the destination. -/
theorem witness_CanFrameIsStagedIffAccepted :
    (legalParams refCan = true ∧ readyCan.params.xport = .can ∧ readyCan.life = .ready ∧ (8 : BitVec 4).toNat = 8 ∧
      (0x1C904001 : CanId).toNat % 2 ^ 24 =
        readyCan.dataId.toNat * 2 ^ 16 + readyCan.hostId.toNat * 2 ^ 8 + readyCan.devId.toNat) ∧
    ((0x18904101 : CanId).toNat % 2 ^ 24 ≠
        readyCan.dataId.toNat * 2 ^ 16 + readyCan.hostId.toNat * 2 ^ 8 + readyCan.devId.toNat ∧ readyCan.Settled) :=
  ⟨by decide, by decide, settled_idle _⟩

theorem witness_CanFrameWhileWaitingBecomesTheMeasurement :
    let s := { readyCan with state := .waiting, cres := .none, timeout := 10 }
    legalParams s.params = true ∧ s.params.xport = .can ∧ s.life = .ready ∧ s.state = .waiting ∧
    (0x18904001 : CanId).toNat % 2 ^ 24 = s.dataId.toNat * 2 ^ 16 + s.hostId.toNat * 2 ^ 8 + s.devId.toNat := by decide

/-- Frames of one byte and of 16; a changed first byte and a changed last byte. -/
theorem witness_SingleByteErrorIsDetected :
    (1 ≤ 1 ∧ 1 ≤ [(0 : Byte)].length) ∧ (1 ≤ 16 ∧ 16 ≤ frameF.length) ∧ 0 < 16 ∧ 15 < 16 ∧ validate frameF 16 = true ∧
    (0x58 : Byte) ≠ frameF.getD 0 0 ∧ (0x56 : Byte) ≠ frameF.getD 15 0 := by decide

/-- The shortest and the longest query frame an instance may have. -/
theorem witness_QueryFrameValidates :
    legalParams { ready ref16 with params := { ref16 with qlen := 4 } }.params = true ∧
    legalParams { ready ref16 with params := { ref16 with qlen := 64 } }.params = true := by decide

/-- A step in a state with the invariant: an idle machine, and one that waits. -/
theorem witness_StepKeepsTheInvariant :
    ({ ready ref16 with inbox := [.tick] }.Inv ∧ ∃ t, step { ready ref16 with inbox := [.tick] } = .next t) ∧
    ({ waiting ref16 2 3 with inbox := [.tick] }.Inv ∧ ∃ t, step { waiting ref16 2 3 with inbox := [.tick] } = .next t) :=
  ⟨⟨inv_of_check (by decide +kernel), _, exec_of_legal (i := .tick) (s := ready ref16) (by decide) rfl⟩,
   ⟨inv_of_check (by decide +kernel), _, exec_of_legal (i := .tick) (s := waiting ref16 2 3) (by decide) rfl⟩⟩

theorem witness_ResetStateHasTheInvariant : legalParams ref16 = true ∧ legalParams refCan = true := by decide

/-- A step that leaves WAITING in place. -/
theorem witness_EveryStepLeavesASettledState :
    ∃ t, exec .nop (waiting ref16 2 3) = .next t ∧ t.state = .waiting :=
  ⟨_, exec_of_legal (by decide) rfl, by decide +kernel⟩

theorem witness_WaitEndsAtTheTimeoutTick :
    legalParams (waiting ref16 0 3).params = true ∧ (waiting ref16 0 3).state = .waiting ∧ (waiting ref16 0 3).Settled ∧
    2 < (waiting ref16 0 3).timeout.toNat - (waiting ref16 0 3).tcnt.toNat := by
  unfold State.Settled; decide +kernel

/-- Three ticks are left, and three come among bytes and a second FETCH. -/
theorem witness_WaitEndsWithinTimeoutTicksWhateverElseComes :
    let events : List Instr := [.tick, .rxByte 0x57, .tick, .fetch, .tick]
    legalParams (waiting ref16 0 3).params = true ∧ (waiting ref16 0 3).state = .waiting ∧ (waiting ref16 0 3).Settled ∧
    (∀ i ∈ events, i.wellFormed = true ∧ i ≠ .reset) ∧
    (waiting ref16 0 3).timeout.toNat - (waiting ref16 0 3).tcnt.toNat ≤ events.count .tick := by
  unfold State.Settled; decide +kernel

theorem witness_SecondFetchWithoutNewFrameReturnsNoData :
    let s := { ready ref16 with stage := bufOf frameF, timeout := 3 }
    s.Inv ∧ s.life = .ready ∧ s.mode = .active ∧ s.state = .idle ∧ arrived s = true ∧
    ∃ t, exec .fetch s = .next t ∧ t.cres = .ok :=
  ⟨inv_of_check (by decide +kernel), by decide, by decide, by decide, by decide +kernel,
   _, exec_of_legal (by decide) rfl, by decide +kernel⟩

/-- MEAS changed by a FETCH, by its word to CMD, and by TX_DONE(1) in SENDING; MEAS_CANID by a CAN frame in WAITING and by
RESET. -/
theorem witness_MeasChangesOnlyByResetOrSuccess :
    let idle := { ready ref16 with stage := bufOf frameF }
    let sent := { sending ref16 with stage := bufOf frameF }
    let wait := { readyCan with state := .waiting, cres := .none, timeout := 10 }
    let measured := { readyCan with measCanId := 1 }
    (∃ t, exec .fetch idle = .next t ∧ t.meas ≠ idle.meas) ∧
    (∃ t, exec (.regWrite 0x0C 0xABCDEF02) idle = .next t ∧ t.meas ≠ idle.meas) ∧
    (∃ t, exec (.txDone true) sent = .next t ∧ t.meas ≠ sent.meas) ∧
    (∃ t, exec (.canRx true false 0x18904001 8 #v[1, 2, 3, 4, 5, 6, 7, 8]) wait = .next t ∧
      t.measCanId ≠ wait.measCanId) ∧
    (∃ t, exec .reset measured = .next t ∧ t.measCanId ≠ measured.measCanId) :=
  ⟨⟨_, exec_of_legal (by decide) rfl, by decide +kernel⟩,
   ⟨_, runAccess_legal (addr := 0x0C) (rule := regWriteRule 0x0C 0xABCDEF02) (s := { ready ref16 with stage := bufOf frameF })
     (by decide) (by decide), by decide +kernel⟩,
   ⟨_, exec_of_legal (by decide) rfl, by decide +kernel⟩, ⟨_, exec_of_legal (by decide) rfl, by decide +kernel⟩,
   ⟨_, exec_of_legal (by decide) rfl, by decide +kernel⟩⟩

theorem witness_OnlyInitDoneAndResetWriteLife :
    (∃ t, exec (.initDone true) (initing ref16) = .next t ∧ t.life ≠ (initing ref16).life) ∧
    (∃ t, exec .reset (dead ref16) = .next t ∧ t.life ≠ (dead ref16).life) :=
  ⟨⟨_, exec_of_legal (by decide) rfl, by decide +kernel⟩, ⟨_, exec_of_legal (by decide) rfl, by decide +kernel⟩⟩

theorem witness_OnlyResetLeavesDead :
    (dead ref16).Inv ∧ (dead ref16).life = .dead ∧ (∃ t, exec .init (dead ref16) = .next t) ∧ Instr.init ≠ .reset :=
  ⟨inv_of_check (by decide +kernel), by decide, ⟨_, exec_of_legal (by decide) rfl⟩, by decide⟩

theorem witness_DeviceContextIsImmutableAfterInit :
    (∃ t, exec (.regWrite 0x08 5) State.reset = .next t ∧ t.timeout ≠ State.reset.timeout) ∧
    (∃ t, exec .reset readyCan = .next t ∧ t.devId ≠ readyCan.devId) :=
  ⟨⟨_, exec_of_legal (by decide) (by decide), by decide +kernel⟩, ⟨_, exec_of_legal (by decide) rfl, by decide +kernel⟩⟩

/-- One output of each kind, and a step without one. -/
theorem witness_OutputsAreEmittedOneAtATimeFromIdle :
    (∃ t, exec .init State.reset = .next t ∧ t.outputs ≠ State.reset.outputs) ∧
    (∃ t, exec .fetch { readyCan with mode := .query } = .next t ∧ t.outputs ≠ { readyCan with mode := .query }.outputs) ∧
    (∃ t, exec .tick State.reset = .next t) :=
  ⟨⟨_, exec_of_legal (by decide) rfl, by decide +kernel⟩, ⟨_, exec_of_legal (by decide) rfl, by decide +kernel⟩,
   ⟨_, exec_of_legal (by decide) rfl⟩⟩

/-- An INITING, a SENDING and a settled WAITING machine that a step takes out of that state. -/
theorem witness_NothingElseEndsACommandInProgress :
    ((initing ref16).state = .initing ∧ ∃ t, exec (.initDone false) (initing ref16) = .next t ∧ t.state ≠ .initing) ∧
    ((sending ref16).state = .sending ∧ ∃ t, exec (.txDone false) (sending ref16) = .next t ∧ t.state ≠ .sending) ∧
    ((waiting ref16 2 3).state = .waiting ∧ (waiting ref16 2 3).Settled ∧
      ∃ t, exec .tick (waiting ref16 2 3) = .next t ∧ t.state ≠ .waiting) :=
  ⟨⟨by decide, _, exec_of_legal (by decide) rfl, by decide +kernel⟩,
   ⟨by decide, _, exec_of_legal (by decide) rfl, by decide +kernel⟩,
   ⟨by decide, witness_legal_settled.2.1, _, exec_of_legal (by decide) rfl, by decide +kernel⟩⟩

/-- GRES and GETVAL changed by a GET, and by a write of its word to CMD. -/
theorem witness_OnlyGetAndResetWriteGetResults :
    (∃ t, exec (.get 0) { ready ref16 with meas := bufOf frameF } = .next t ∧
      t.gres ≠ { ready ref16 with meas := bufOf frameF }.gres ∧ t.getval ≠ { ready ref16 with meas := bufOf frameF }.getval) ∧
    (∃ t, exec (.regWrite 0x0C 0x13) (ready ref16) = .next t ∧ t.gres ≠ (ready ref16).gres) :=
  ⟨⟨_, exec_of_legal (by decide) rfl, by decide +kernel⟩,
   ⟨_, runAccess_legal (addr := 0x0C) (rule := regWriteRule 0x0C 0x13) (s := ready ref16) (by decide) (by decide), by decide +kernel⟩⟩

end Sys2Proof.Tests
end

section
/-! PROOFS. The scope rules of 00_scope.md: what a step is (R20), which instances are refused (R13), and why the events still
to come do not matter to an instruction. -/

namespace Sys2Proof

/-- The decoder reads back every spelling (R91, R93): the per-constructor laws in one statement. -/
theorem decode_encode {i : Instr} (hw : i.wellFormed = true) : decode (encode i) = .instr i := by
  cases i with
  | nop => exact Laws.DecodesBack.nop hw
  | init => exact Laws.DecodesBack.init hw
  | fetch => exact Laws.DecodesBack.fetch hw
  | get chan => exact Laws.DecodesBack.get chan hw
  | reservedLow op => exact Laws.DecodesBack.reservedLow op hw
  | reservedHigh op => exact Laws.DecodesBack.reservedHigh op hw
  | reset => exact Laws.DecodesBack.reset hw
  | regWrite addr v => exact Laws.DecodesBack.regWrite addr v hw
  | regRead addr => exact Laws.DecodesBack.regRead addr hw
  | rxByte b => exact Laws.DecodesBack.rxByte b hw
  | canRx ide rtr id dlc data => exact Laws.DecodesBack.canRx ide rtr id dlc data hw
  | tick => exact Laws.DecodesBack.tick hw
  | txDone ok => exact Laws.DecodesBack.txDone ok hw
  | initDone ok => exact Laws.DecodesBack.initDone ok hw

/-- The instruction is no register access, or one at a word-aligned offset: what `exec` asks of an operand (R74). -/
def Instr.aligned : Instr → Bool
  | .regWrite addr _ => wordAligned addr
  | .regRead addr => wordAligned addr
  | _ => true

end Sys2Proof

namespace Sys2Proof.Machine

/-! ### One step -/

theorem step_of_inbox_nil {s : State} (h : s.inbox = []) : step s = .refused .noEvent := by
  simp [step, takeEvent, h]

theorem step_of_decode {s : State} {e : InEvent} {rest : List InEvent} {i : Instr} (h : s.inbox = e :: rest)
    (hd : decode e = .instr i) : step s = exec i { s with inbox := rest } := by
  simp [step, takeEvent, h, hd]

/-! ### What exec answers, whatever the instruction -/

/-- All three answers: an illegal instance is refused first (R13), then a misaligned access (R74); any other instruction has
the settled result of its rule as its next state (R20). -/
theorem exec_eq (i : Instr) (s : State) :
    exec i s =
      if legalParams s.params then
        if i.aligned then .next (settle (ruleOf i s)) else .refused .misalignedAccess
      else .refused .illegalInstance := by
  cases i <;> rfl

/-- Neither a next state nor the refusal of a misaligned access is this answer, so the instance alone decides it (R13). -/
theorem exec_eq_illegalInstance_iff (i : Instr) (s : State) :
    exec i s = .refused .illegalInstance ↔ ¬ legalParams s.params = true := by
  rw [exec_eq]
  by_cases hl : legalParams s.params = true
  · by_cases ha : i.aligned = true <;> simp [hl, ha]
  · simp [hl]

/-- `FLEN` (R12) as one expression. -/
theorem frameLen_eq (p : Params) : frameLen p = if p.xport = .uart then p.len else 8 := by
  cases hx : p.xport <;> simp [frameLen, hx]

/-! ### The choices by transport and by mode -/

theorem complete_uart {s : State} (h : s.params.xport = .uart) : complete s = completeUart s := by simp [complete, h]

theorem complete_can {s : State} (h : s.params.xport = .can) : complete s = completeCan s := by simp [complete, h]

theorem startFetch_active {s : State} (h : s.mode = .active) : startFetch s = enterWaiting s := by simp [startFetch, h]

theorem startFetch_query {s : State} (h : s.mode = .query) :
    startFetch s = emit (request s) { s with state := .sending } := by simp [startFetch, h]

/-! ### No instruction reads the inbox, and what it does to the rest of the state is the same for every inbox -/

/-- The same state with other events still to come. -/
def State.withInbox (l : List InEvent) (s : State) : State := { s with inbox := l }

section
variable (l : List InEvent) (s : State)

theorem dropMalformed_withInbox : dropMalformed (s.withInbox l) = (dropMalformed s).withInbox l := by
  simp only [dropMalformed, apply_ite (State.withInbox l)]
  rfl

theorem completeUart_withInbox : completeUart (s.withInbox l) = (completeUart s).withInbox l := by
  simp only [completeUart, dropMalformed_withInbox, apply_ite (State.withInbox l)]
  rfl

theorem complete_withInbox : complete (s.withInbox l) = (complete s).withInbox l := by
  cases hx : s.params.xport with
  | uart => rw [complete_uart hx, complete_uart (s := s.withInbox l) hx, completeUart_withInbox]
  | can => rw [complete_can hx, complete_can (s := s.withInbox l) hx]; rfl

theorem settle_withInbox : settle (s.withInbox l) = (settle s).withInbox l := by
  simp only [settle, complete_withInbox, apply_ite (State.withInbox l)]
  rfl

theorem initRule_withInbox : initRule (s.withInbox l) = (initRule s).withInbox l := by
  simp only [initRule, apply_ite (State.withInbox l)]
  rfl

theorem startFetch_withInbox : startFetch (s.withInbox l) = (startFetch s).withInbox l := by
  cases hm : s.mode with
  | active => rw [startFetch_active hm, startFetch_active (s := s.withInbox l) hm]; rfl
  | query => rw [startFetch_query hm, startFetch_query (s := s.withInbox l) hm]; rfl

theorem fetchRule_withInbox : fetchRule (s.withInbox l) = (fetchRule s).withInbox l := by
  simp only [fetchRule, apply_ite (State.withInbox l), ← startFetch_withInbox]
  rfl

theorem getRule_withInbox (chan : BitVec 4) : getRule chan (s.withInbox l) = (getRule chan s).withInbox l := by
  simp only [getRule, apply_ite (State.withInbox l)]
  rfl

theorem command_withInbox (w : Word) : command w (s.withInbox l) = (command w s).withInbox l := by
  unfold command
  split
  · rfl
  · exact initRule_withInbox l s
  · exact fetchRule_withInbox l s
  · exact getRule_withInbox l s _
  · rfl

theorem writeConfig_withInbox {write : State → State} (h : write (s.withInbox l) = (write s).withInbox l) :
    writeConfig write (s.withInbox l) = (writeConfig write s).withInbox l := by
  simp only [writeConfig, apply_ite (State.withInbox l), ← h]
  rfl

theorem regWriteRule_withInbox (addr : Addr) (v : Word) :
    regWriteRule addr v (s.withInbox l) = (regWriteRule addr v s).withInbox l := by
  unfold regWriteRule
  split
  · exact writeConfig_withInbox l s rfl
  · exact writeConfig_withInbox l s rfl
  · exact writeConfig_withInbox l s rfl
  · exact command_withInbox l s v
  · rfl

theorem rxByteRule_withInbox (b : Byte) : rxByteRule b (s.withInbox l) = (rxByteRule b s).withInbox l := by
  simp only [rxByteRule, synchronize, apply_ite (State.withInbox l)]
  rfl

theorem canRxRule_withInbox (ide rtr : Bool) (id : CanId) (dlc : BitVec 4) (data : CanData) :
    canRxRule ide rtr id dlc data (s.withInbox l) = (canRxRule ide rtr id dlc data s).withInbox l := by
  simp only [canRxRule, apply_ite (State.withInbox l)]
  rfl

theorem tickRule_withInbox : tickRule (s.withInbox l) = (tickRule s).withInbox l := by
  simp only [tickRule, apply_ite (State.withInbox l)]
  rfl

theorem txDoneRule_withInbox (ok : Bool) : txDoneRule ok (s.withInbox l) = (txDoneRule ok s).withInbox l := by
  simp only [txDoneRule, apply_ite (State.withInbox l)]
  rfl

theorem initDoneRule_withInbox (ok : Bool) : initDoneRule ok (s.withInbox l) = (initDoneRule ok s).withInbox l := by
  simp only [initDoneRule, apply_ite (State.withInbox l)]
  rfl

theorem ruleOf_withInbox (i : Instr) : ruleOf i (s.withInbox l) = (ruleOf i s).withInbox l := by
  cases i with
  | nop => rfl
  | init => exact initRule_withInbox l s
  | fetch => exact fetchRule_withInbox l s
  | get chan => exact getRule_withInbox l s chan
  | reservedLow op => rfl
  | reservedHigh op => rfl
  | reset => rfl
  | regWrite addr v => exact regWriteRule_withInbox l s addr v
  | regRead addr => rfl
  | rxByte b => exact rxByteRule_withInbox l s b
  | canRx ide rtr id dlc data => exact canRxRule_withInbox l s ide rtr id dlc data
  | tick => exact tickRule_withInbox l s
  | txDone ok => exact txDoneRule_withInbox l s ok
  | initDone ok => exact initDoneRule_withInbox l s ok

/-- Running an instruction and exchanging the inbox commute. -/
theorem exec_withInbox (i : Instr) : exec i (s.withInbox l) = mapNext (State.withInbox l) (exec i s) := by
  have hp : (s.withInbox l).params = s.params := rfl
  rw [exec_eq, exec_eq, ruleOf_withInbox, settle_withInbox, hp]
  by_cases hl : legalParams s.params = true
  · by_cases ha : i.aligned = true <;> simp [hl, ha, mapNext]
  · simp [hl, mapNext]

end

/-! ### Runs of steps -/

/-- With the encoding of a well-formed instruction as its oldest event, a step is `exec` of that instruction. -/
theorem step_withInbox_encode {i : Instr} (hw : i.wellFormed = true) (l : List InEvent) (s : State) :
    step (s.withInbox (encode i :: l)) = exec i (s.withInbox l) :=
  step_of_decode rfl (decode_encode hw)

/-- Running `is` as the first events of the inbox is running them outright: by induction on `is`, since what an instruction
does to the rest of the state is the same whichever inbox it runs under. -/
theorem run_withInbox_encode {is : List Instr} (hw : ∀ i ∈ is, i.wellFormed = true) (rest : List InEvent) (s : State) :
    core.run is.length (s.withInbox (is.map encode ++ rest)) = execAll is (s.withInbox rest) := by
  induction is generalizing s with
  | nil => rfl
  | cons i is ih =>
    have hstep : core.step (s.withInbox ((i :: is).map encode ++ rest)) =
        mapNext (State.withInbox (is.map encode ++ rest)) (exec i s) :=
      (step_withInbox_encode (hw i List.mem_cons_self) _ s).trans (exec_withInbox _ s i)
    simp only [List.length_cons, Host.Core.run, execAll, hstep, exec_withInbox rest s i]
    cases exec i s with
    | next t => exact ih (fun j hj => hw j (List.mem_cons_of_mem i hj)) t
    | fault r => cases r
    | refused r => rfl

end Sys2Proof.Machine

namespace Sys2Proof

open Machine

/-- Settles O8: by induction on the instructions, each step being `exec` of the oldest event's instruction, which
commutes with exchanging the events still to come (log entry 3). -/
theorem runOfStepsIsTheRunOfItsInstructions : Obligations.RunOfStepsIsTheRunOfItsInstructions := by
  intro is s rest hw hin
  have hs : s = s.withInbox (is.map encode ++ rest) := by rw [← hin]; rfl
  exact (congrArg (core.run is.length) hs).trans (run_withInbox_encode hw rest s)

/-- Settles O9: `exec` tests the parameters before anything else, and the test is the ranges of R10 and R107. -/
theorem illegalInstanceIsRefused : Obligations.IllegalInstanceIsRefused := by
  intro i s
  rw [exec_eq_illegalInstance_iff, legalParams_iff, frameLen_eq]

/-- Settles O6: a step is defined as taking the oldest event out and running what it decodes to (R20). -/
theorem stepRunsTheDecodedEvent : Obligations.StepRunsTheDecodedEvent :=
  fun _ _ _ _ hin hd => step_of_decode hin hd

/-- Settles O7: there is no event to take (log entry 3). -/
theorem stepWithoutEventIsRefused : Obligations.StepWithoutEventIsRefused :=
  fun _ hin => step_of_inbox_nil hin

end Sys2Proof
end

section
/-! PROOFS. What one rule can do, said once for all instructions (00_scope.md R20): the elements it writes and the guards
under which it writes them. Whole-machine statements are read off the cases. -/

namespace Sys2Proof

/-- `i` is the command `c`, as such or as a word written to CMD (R212). -/
def Instr.Asks (i c : Instr) : Prop := i = c ∨ ∃ w : Word, i = .regWrite 0x0C w ∧ decodeCommand w = c

theorem cmdOp_toNat (w : Word) : (cmdOp w).toNat = w.toNat % 16 := by
  simp [cmdOp]

theorem op_of_decodeCommand_fetch {w : Word} (h : decodeCommand w = .fetch) : w.toNat % 16 = 2 := by
  unfold decodeCommand at h
  split at h
  case h_3 hop => rw [← cmdOp_toNat, hop]
  case h_5 => split at h <;> cases h
  all_goals cases h

theorem op_of_decodeCommand_get {w : Word} {chan : BitVec 4} (h : decodeCommand w = .get chan) : w.toNat % 16 = 3 := by
  unfold decodeCommand at h
  split at h
  case h_4 hop => rw [← cmdOp_toNat, hop]
  case h_5 => split at h <;> cases h
  all_goals cases h

/-- A FETCH as the spec's tables spell it: the instruction, or a word with OP 2 (R93). -/
theorem Instr.Asks.fetch_word {i : Instr} (h : i.Asks .fetch) :
    i = .fetch ∨ ∃ w : Word, i = .regWrite 0x0C w ∧ w.toNat % 16 = 2 :=
  h.imp_right fun ⟨w, hi, hw⟩ => ⟨w, hi, op_of_decodeCommand_fetch hw⟩

/-- A GET as the spec's tables spell it: the instruction, or a word with OP 3 (R93). -/
theorem Instr.Asks.get_word {i : Instr} {chan : BitVec 4} (h : i.Asks (.get chan)) :
    (∃ chan, i = .get chan) ∨ ∃ w : Word, i = .regWrite 0x0C w ∧ w.toNat % 16 = 3 :=
  h.imp (fun hi => ⟨chan, hi⟩) fun ⟨w, hi, hw⟩ => ⟨w, hi, op_of_decodeCommand_get hw⟩

end Sys2Proof

namespace Sys2Proof.Machine

/-- A word written to CMD has the rule of the command it decodes to (R212). -/
theorem command_eq_ruleOf (w : Word) : command w = ruleOf (decodeCommand w) := by
  funext s
  unfold command decodeCommand
  generalize (cmdOp w).toNat = op
  match op with
  | 0 => rfl
  | 1 => rfl
  | 2 => rfl
  | 3 => rfl
  | n + 4 =>
    show reservedRule s =
      ruleOf (if n + 4 < 8 then .reservedLow (w.extractLsb' 0 2) else .reservedHigh (w.extractLsb' 0 3)) s
    split <;> rfl

/-- Everything the rule of `i` can make of `s`, before settle. -/
inductive RuleEffect (i : Instr) (s : State) : State → Prop
  /-- RESET (R260) -/
  | reset : i = .reset → RuleEffect i s (resetRule s)
  /-- a command that is dropped or does nothing, a read, an event that is ignored -/
  | quiet (dropped : Bool) (reads : List Word) : RuleEffect i s { s with cmderr := dropped, readReturns := reads }
  /-- a write of CTRL, DEVCFG or TIMEOUT while unlocked (R44) -/
  | configure (addr : Addr) (v : Word) (m : Mode) (dev host data : Byte) (p : BitVec 5) (lim : Word) :
      i = .regWrite addr v → (addr = 0x00 ∨ addr = 0x04 ∨ addr = 0x08) → s.life = .uninit → s.state = .idle →
      RuleEffect i s { s with mode := m, devId := dev, hostId := host, dataId := data, prio := p, timeout := lim }
  /-- INIT, accepted (R170) -/
  | init : i.Asks .init → s.life = .uninit → s.state = .idle →
      RuleEffect i s (emit .initReq { s with cmderr := false, cres := .none, state := .initing })
  /-- FETCH of a device that is not READY (R171) -/
  | fetchUnavailable : i.Asks .fetch → s.state = .idle → s.life ≠ .ready →
      RuleEffect i s (postCommandResult .transportUnavailable (setCmderr false s))
  /-- FETCH in query mode (R171, R173) -/
  | fetchQuery (o : OutTx) : i.Asks .fetch → s.state = .idle → s.life = .ready → s.mode = .query →
      RuleEffect i s (emit o { s with cmderr := false, cres := .none, state := .sending })
  /-- FETCH in active mode (R171, R172) -/
  | fetchActive : i.Asks .fetch → s.state = .idle → s.life = .ready → s.mode = .active →
      RuleEffect i s (enterWaiting { s with cmderr := false, cres := .none })
  /-- GET with a value (R191) -/
  | getValue (chan : BitVec 4) (v : Word) : i.Asks (.get chan) → s.life = .ready →
      RuleEffect i s (postGetResult .ok { s with cmderr := false, getval := v })
  /-- GET without one (R191) -/
  | getFails (chan : BitVec 4) (r : ResultCode) : i.Asks (.get chan) →
      (r = .unsupportedChannel ∨ r = .transportUnavailable) → RuleEffect i s (postGetResult r (setCmderr false s))
  /-- RX_BYTE, first step of R131: no frame begins without the header -/
  | rxNoHeader (b : Byte) : i = .rxByte b → s.params.xport = .uart → s.life = .ready →
      RuleEffect i s { s with idx := 0, acc := zeroBuf }
  /-- RX_BYTE, third step of R131: the frame is complete -/
  | rxLast (b : Byte) : i = .rxByte b → s.params.xport = .uart → s.life = .ready →
      (s.idx.toNat = 0 → b = s.params.hdr) → s.idx.toNat + 1 = s.params.len →
      RuleEffect i s (frameReady (putByte s.acc s.idx.toNat b) s)
  /-- RX_BYTE, second step of R131 only: the frame goes on -/
  | rxMore (b : Byte) : i = .rxByte b → s.params.xport = .uart → s.life = .ready →
      (s.idx.toNat = 0 → b = s.params.hdr) → s.idx.toNat + 1 ≠ s.params.len →
      RuleEffect i s { s with idx := BitVec.ofNat 6 (s.idx.toNat + 1), acc := putByte s.acc s.idx.toNat b }
  /-- CAN_RX, accepted (R151, R152) -/
  | canRx (ide rtr : Bool) (id : CanId) (dlc : BitVec 4) (data : CanData) : i = .canRx ide rtr id dlc data →
      s.params.xport = .can → s.life = .ready → accepts ide rtr id dlc s = true →
      RuleEffect i s { s with stage := copyPayload data s.stage, stageCanId := id, canPend := true }
  /-- TICK in a wait with time left (R180) -/
  | tick : i = .tick → s.state = .waiting → s.tcnt < s.timeout → RuleEffect i s { s with tcnt := s.tcnt + 1 }
  /-- TX_DONE(1) to a request (R175) -/
  | sent : i = .txDone true → s.state = .sending → RuleEffect i s (enterWaiting s)
  /-- TX_DONE(0) to a request (R175) -/
  | sendFailed : i = .txDone false → s.state = .sending → RuleEffect i s (postCommandResult .sendFailure s)
  /-- INIT_DONE(1) to an INIT_REQ (R176) -/
  | initUp : i = .initDone true → s.state = .initing →
      RuleEffect i s (postCommandResult .ok { s with life := .ready })
  /-- INIT_DONE(0) to an INIT_REQ (R176) -/
  | initDown : i = .initDone false → s.state = .initing →
      RuleEffect i s (postCommandResult .transportUnavailable { s with life := .dead })

section
variable {i : Instr} (s : State)

/-! ### The effect of each rule -/

theorem RuleEffect.refl : RuleEffect i s s := .quiet s.cmderr s.readReturns

theorem setCmderr_effect (d : Bool) : RuleEffect i s (setCmderr d s) := .quiet d s.readReturns

theorem initRule_effect (hi : i.Asks .init) : RuleEffect i s (initRule s) := by
  unfold initRule
  split
  case isTrue => exact setCmderr_effect s true
  case isFalse h =>
    rw [not_or, not_not, not_not] at h
    exact .init hi h.1 h.2

theorem fetchRule_effect (hi : i.Asks .fetch) : RuleEffect i s (fetchRule s) := by
  unfold fetchRule
  split
  case isTrue => exact setCmderr_effect s true
  case isFalse hidle =>
    rw [not_not] at hidle
    split
    case isTrue hlife => exact .fetchUnavailable hi hidle hlife
    case isFalse hlife =>
      rw [not_not] at hlife
      unfold startFetch
      split
      case h_1 hm => exact .fetchQuery _ hi hidle hlife hm
      case h_2 hm => exact .fetchActive hi hidle hlife hm

theorem getRule_effect {chan : BitVec 4} (hi : i.Asks (.get chan)) : RuleEffect i s (getRule chan s) := by
  unfold getRule
  split
  case isTrue => exact .getFails chan _ hi (.inr rfl)
  case isFalse hlife =>
    rw [not_not] at hlife
    split
    case isTrue => exact .getValue chan _ hi hlife
    case isFalse => exact .getFails chan _ hi (.inl rfl)

/-- A word written to CMD has one of the effects of its command (R212). -/
theorem command_effect {w : Word} (hi : i = .regWrite 0x0C w) : RuleEffect i s (command w s) := by
  have asks : ∀ c, decodeCommand w = c → i.Asks c := fun c hc => .inr ⟨w, hi, hc⟩
  rw [command_eq_ruleOf]
  cases hc : decodeCommand w with
  | init => exact initRule_effect s (asks _ hc)
  | fetch => exact fetchRule_effect s (asks _ hc)
  | get chan => exact getRule_effect s (asks _ hc)
  | nop => exact setCmderr_effect s false
  | reservedLow _ => exact setCmderr_effect s true
  | reservedHigh _ => exact setCmderr_effect s true
  | _ =>
    unfold decodeCommand at hc
    split at hc
    case h_5 => split at hc <;> cases hc
    all_goals cases hc

/-- A configuration write is made while unlocked and ignored at any other time (R44). -/
theorem writeConfig_effect {write : State → State}
    (h : s.life = .uninit → s.state = .idle → RuleEffect i s (write s)) : RuleEffect i s (writeConfig write s) := by
  unfold writeConfig
  split
  case isTrue hu =>
    simp only [unlocked, Bool.and_eq_true, beq_iff_eq] at hu
    exact h hu.1 hu.2
  case isFalse => exact .refl s

theorem regWriteRule_effect {addr : Addr} {v : Word} (hi : i = .regWrite addr v) :
    RuleEffect i s (regWriteRule addr v s) := by
  unfold regWriteRule
  split
  case h_1 ha =>
    exact writeConfig_effect s fun hl hs =>
      .configure addr v _ _ _ _ _ _ hi (.inl (BitVec.eq_of_toNat_eq ha)) hl hs
  case h_2 ha =>
    exact writeConfig_effect s fun hl hs =>
      .configure addr v _ _ _ _ _ _ hi (.inr (.inl (BitVec.eq_of_toNat_eq ha))) hl hs
  case h_3 ha =>
    exact writeConfig_effect s fun hl hs =>
      .configure addr v _ _ _ _ _ _ hi (.inr (.inr (BitVec.eq_of_toNat_eq ha))) hl hs
  case h_4 ha =>
    have haddr : addr = 0x0C := BitVec.eq_of_toNat_eq ha
    exact command_effect s (haddr ▸ hi)
  case h_5 => exact .refl s

theorem rxByteRule_effect {b : Byte} (hi : i = .rxByte b) : RuleEffect i s (rxByteRule b s) := by
  unfold rxByteRule
  split
  case isFalse => exact .refl s
  case isTrue h =>
    obtain ⟨hx, hl⟩ := h
    unfold synchronize
    dsimp only
    split
    case isTrue => exact .rxNoHeader b hi hx hl
    case isFalse hstart =>
      have hhdr : s.idx.toNat = 0 → b = s.params.hdr := fun h0 =>
        Classical.not_not.1 fun hb => hstart ⟨by rw [h0], hb⟩
      split
      case isTrue hlen => exact .rxLast b hi hx hl hhdr hlen
      case isFalse hlen => exact .rxMore b hi hx hl hhdr hlen

theorem canRxRule_effect {ide rtr : Bool} {id : CanId} {dlc : BitVec 4} {data : CanData}
    (hi : i = .canRx ide rtr id dlc data) : RuleEffect i s (canRxRule ide rtr id dlc data s) := by
  unfold canRxRule
  split
  case isTrue h =>
    obtain ⟨hx, hl, ha⟩ := h
    exact .canRx ide rtr id dlc data hi hx hl ha
  case isFalse => exact .refl s

theorem tickRule_effect (hi : i = .tick) : RuleEffect i s (tickRule s) := by
  unfold tickRule
  split
  case isTrue h => exact .tick hi h.1 h.2
  case isFalse => exact .refl s

theorem txDoneRule_effect {ok : Bool} (hi : i = .txDone ok) : RuleEffect i s (txDoneRule ok s) := by
  unfold txDoneRule
  split
  case isTrue => exact .refl s
  case isFalse h =>
    rw [not_not] at h
    cases ok with
    | true => exact .sent hi h
    | false => exact .sendFailed hi h

theorem initDoneRule_effect {ok : Bool} (hi : i = .initDone ok) : RuleEffect i s (initDoneRule ok s) := by
  unfold initDoneRule
  split
  case isTrue => exact .refl s
  case isFalse h =>
    rw [not_not] at h
    cases ok with
    | true => exact .initUp hi h
    | false => exact .initDown hi h

variable (i) in
theorem ruleOf_effect : RuleEffect i s (ruleOf i s) := by
  cases i with
  | nop => exact setCmderr_effect s false
  | init => exact initRule_effect s (.inl rfl)
  | fetch => exact fetchRule_effect s (.inl rfl)
  | get chan => exact getRule_effect s (.inl rfl)
  | reservedLow op => exact setCmderr_effect s true
  | reservedHigh op => exact setCmderr_effect s true
  | reset => exact .reset rfl
  | regWrite addr v => exact regWriteRule_effect s rfl
  | regRead addr => exact .quiet s.cmderr _
  | rxByte b => exact rxByteRule_effect s rfl
  | canRx ide rtr id dlc data => exact canRxRule_effect s rfl
  | tick => exact tickRule_effect s rfl
  | txDone ok => exact txDoneRule_effect s rfl
  | initDone ok => exact initDoneRule_effect s rfl

end

/-- A next state is a settled effect of the instruction's rule, on a legal instance (R13, R20). -/
theorem exec_effect {i : Instr} {s t : State} (h : exec i s = .next t) :
    legalParams s.params = true ∧ ∃ u, RuleEffect i s u ∧ t = settle u :=
  ⟨(exec_next h).1, _, ruleOf_effect i s, (exec_next h).2⟩

/-- A step is an instruction run with its event taken out of the inbox (R20). -/
theorem step_next {s t : State} (h : step s = .next t) : ∃ i rest, exec i (s.withInbox rest) = .next t := by
  unfold step at h
  split at h
  · cases h
  · next e s' htake =>
    split at h
    · next i _ =>
      unfold takeEvent at htake
      split at htake
      · cases htake
      · next rest _ =>
        cases htake
        exact ⟨i, rest, h⟩
    · cases h

/-! ### Who writes what -/

section
variable {i : Instr} {s u : State}

/-- LIFE is written by RESET and INIT_DONE (R40). -/
theorem RuleEffect.life_eq (h : RuleEffect i s u) :
    u.life = s.life ∨ i = .reset ∨ ∃ ok, i = .initDone ok ∧ s.state = .initing := by
  cases h with
  | reset hi => exact .inr (.inl hi)
  | initUp hi hs => exact .inr (.inr ⟨true, hi, hs⟩)
  | initDown hi hs => exact .inr (.inr ⟨false, hi, hs⟩)
  | _ => exact .inl rfl

/-- The Device Context is written by RESET and by a configuration write before INIT (R44). -/
theorem RuleEffect.context_eq (h : RuleEffect i s u) :
    (u.mode = s.mode ∧ u.devId = s.devId ∧ u.hostId = s.hostId ∧ u.dataId = s.dataId ∧ u.prio = s.prio ∧
      u.timeout = s.timeout) ∨
    i = .reset ∨ (s.life = .uninit ∧ s.state = .idle ∧
      ∃ addr v, i = .regWrite addr v ∧ (addr = 0x00 ∨ addr = 0x04 ∨ addr = 0x08)) := by
  cases h with
  | reset hi => exact .inr (.inl hi)
  | configure addr v _ _ _ _ _ _ hi ha hl hs => exact .inr (.inr ⟨hl, hs, addr, v, hi, ha⟩)
  | _ => exact .inl ⟨rfl, rfl, rfl, rfl, rfl, rfl⟩

/-- GRES and GETVAL are written by RESET and GET, and GETVAL by a GET that ends with OK (R37, R41). -/
theorem RuleEffect.get_results_eq (h : RuleEffect i s u) :
    (u.gres = s.gres ∧ u.getval = s.getval) ∨ i = .reset ∨
    ((∃ chan, i.Asks (.get chan)) ∧ (u.getval = s.getval ∨ u.gres = .ok)) := by
  cases h with
  | reset hi => exact .inr (.inl hi)
  | getValue chan _ hi _ => exact .inr (.inr ⟨⟨chan, hi⟩, .inr rfl⟩)
  | getFails chan _ hi _ => exact .inr (.inr ⟨⟨chan, hi⟩, .inl rfl⟩)
  | _ => exact .inl ⟨rfl, rfl⟩

/-- Of the rules, RESET alone writes MEAS and MEAS_CANID: a success is posted by settle (R36). -/
theorem RuleEffect.meas_eq (h : RuleEffect i s u) :
    (u.meas = s.meas ∧ u.measCanId = s.measCanId) ∨ i = .reset := by
  cases h with
  | reset hi => exact .inr hi
  | _ => exact .inl ⟨rfl, rfl⟩

/-- Where a wait comes from (R172, R175). -/
theorem RuleEffect.of_waiting (h : RuleEffect i s u) (hw : u.state = .waiting) :
    s.state = .waiting ∨ (s.state = .sending ∧ i = .txDone true) ∨
    (s.state = .idle ∧ s.life = .ready ∧ s.mode = .active ∧ i.Asks .fetch) := by
  cases h with
  | fetchActive hi hs hl hm => exact .inr (.inr ⟨hs, hl, hm, hi⟩)
  | sent hi hs => exact .inr (.inl ⟨hs, hi⟩)
  | reset | init | fetchUnavailable | fetchQuery | sendFailed | initUp | initDown => cases hw
  | _ => exact .inl hw

end

/-- Settle writes MEAS and MEAS_CANID only where it ends a wait with OK, and STAGE is then cleared (R184, R185). -/
theorem settle_meas (u : State) :
    ((settle u).meas = u.meas ∧ (settle u).measCanId = u.measCanId) ∨
    (u.state = .waiting ∧ (settle u).cres = .ok ∧ (settle u).state = .idle ∧ (settle u).stage = zeroBuf) := by
  obtain ⟨_, h⟩ | ⟨hw, _, h⟩ | ⟨_, _, _, h⟩ | ⟨_, _, _, h⟩ := settle_cases u
  · exact .inl (by simp [h])
  · obtain ⟨_, _, hc⟩ | ⟨_, _, hc⟩ | ⟨_, hc⟩ := complete_cases u
    · exact .inr (by simp [h, hc, hw])
    · exact .inl (by simp [h, hc])
    · exact .inr (by simp [h, hc, hw])
  · exact .inl (by simp [h])
  · exact .inl (by simp [h])

end Sys2Proof.Machine
end

section
/-! PROOFS. The invariant of the reachable states (10_state.md R33 to R38, 60_exceptions.md R231): it is cut into parts, each
about a few elements, so that a rule has to be checked only against the parts whose elements it writes. -/

namespace Sys2Proof.Machine

/-! ### The parts -/

/-- What the invariant says of ACC and IDX (R33, R132 to R134). -/
structure AccOk (p : Params) (idx : BitVec 6) (acc : Buf) : Prop where
  idx_lt : idx.toNat < frameLen p
  tail : ∀ i, idx.toNat ≤ i → byteAt acc i = 0
  head : 0 < idx.toNat → byteAt acc 0 = p.hdr
  can : p.xport = .can → idx = 0

/-- What the invariant says of STAGE, CAN_PEND and STAGE_CANID (R34, R35). -/
structure StageOk (p : Params) (stage : Buf) (pend : Bool) (id : CanId) : Prop where
  tail : ∀ i, frameLen p ≤ i → byteAt stage i = 0
  uart_empty : p.xport = .uart → byteAt stage 0 ≠ p.hdr → stage = zeroBuf
  can_empty : p.xport = .can → pend = false → stage = zeroBuf
  uart : p.xport = .uart → pend = false
  no_id : pend = false → id = 0

/-- What the invariant says of MEAS and MEAS_CANID (R35, R36). -/
structure MeasOk (p : Params) (meas : Buf) (id : CanId) : Prop where
  tail : ∀ i, frameLen p ≤ i → byteAt meas i = 0
  valid : p.xport = .uart → meas = zeroBuf ∨ (byteAt meas 0 = p.hdr ∧ validate meas.toList p.len = true)
  uart : p.xport = .uart → id = 0

/-- The agreement of STATE, LIFE, MODE and CRES (R170 to R176, R230 to R232). -/
structure ControlOk (x : Transport) (st : OrchState) (l : Life) (m : Mode) (c : ResultCode) : Prop where
  initing_uninit : st = .initing → l = .uninit
  sending_query : st = .sending → l = .ready ∧ m = .query
  waiting_ready : st = .waiting → l = .ready
  dead_idle : l = .dead → st = .idle ∧ c = .transportUnavailable
  busy_no_result : st ≠ .idle → c = .none
  idle_result : st = .idle → l = .ready → c ≠ .none
  code : c ≠ .unsupportedChannel
  can_code : x = .can → c ≠ .malformedFrame

/-- The results with which an INIT or FETCH can leave a READY device (R175, R176, R182, R184): a malformed frame is UART's
alone (R185). -/
inductive ReadyResult (x : Transport) : ResultCode → Prop
  | ok : ReadyResult x .ok
  | noData : ReadyResult x .noData
  | sendFailure : ReadyResult x .sendFailure
  | malformedFrame : x = .uart → ReadyResult x .malformedFrame

/-- The invariant without `settled`: what holds of a state between an event's rule and settle too. -/
structure State.RuleInv (s : State) : Prop where
  legal : legalParams s.params = true
  acc : AccOk s.params s.idx s.acc
  stage : StageOk s.params s.stage s.canPend s.stageCanId
  meas : MeasOk s.params s.meas s.measCanId
  tcnt_le : s.tcnt ≤ s.timeout
  not_ready : s.life ≠ .ready →
    s.idx = 0 ∧ s.stage = zeroBuf ∧ s.canPend = false ∧ s.meas = zeroBuf ∧ s.measCanId = 0 ∧ s.tcnt = 0
  control : ControlOk s.params.xport s.state s.life s.mode s.cres
  gres : s.gres = .none ∨ s.gres = .ok ∨ s.gres = .unsupportedChannel ∨ s.gres = .transportUnavailable

theorem State.Inv.ruleInv {s : State} (h : s.Inv) : s.RuleInv where
  legal := h.legal
  acc := ⟨h.idx_lt, h.acc_tail, h.acc_head, h.can_no_idx⟩
  stage :=
    { tail := h.stage_tail
      uart_empty := fun hx hne => h.stage_empty (by rw [arrived_uart hx]; exact beq_false_of_ne hne)
      can_empty := fun hx hp => h.stage_empty (by rw [arrived_can hx, hp])
      uart := fun hx => (h.uart_no_can hx).1
      no_id := h.no_pend_no_id }
  meas := ⟨h.meas_tail, h.meas_valid, fun hx => (h.uart_no_can hx).2.2⟩
  tcnt_le := h.tcnt_le
  not_ready := h.not_ready
  control := ⟨h.initing_uninit, h.sending_query, h.waiting_ready, h.dead_idle, h.busy_no_result, h.idle_result,
    h.cres_code, h.can_cres⟩
  gres := h.gres_code

theorem State.RuleInv.stage_empty {s : State} (h : s.RuleInv) (ha : arrived s = false) : s.stage = zeroBuf := by
  cases hx : s.params.xport with
  | uart => exact h.stage.uart_empty hx (by rw [arrived_uart hx] at ha; exact ne_of_beq_false ha)
  | can => exact h.stage.can_empty hx (by rw [← arrived_can hx, ha])

theorem State.RuleInv.inv {s : State} (h : s.RuleInv) (hs : s.Settled) : s.Inv where
  legal := h.legal
  idx_lt := h.acc.idx_lt
  acc_tail := h.acc.tail
  acc_head := h.acc.head
  stage_tail := h.stage.tail
  stage_empty := h.stage_empty
  meas_tail := h.meas.tail
  meas_valid := h.meas.valid
  uart_no_can := fun hx => ⟨h.stage.uart hx, h.stage.no_id (h.stage.uart hx), h.meas.uart hx⟩
  can_no_idx := h.acc.can
  no_pend_no_id := h.stage.no_id
  tcnt_le := h.tcnt_le
  settled := hs
  not_ready := h.not_ready
  initing_uninit := h.control.initing_uninit
  sending_query := h.control.sending_query
  waiting_ready := h.control.waiting_ready
  dead_idle := h.control.dead_idle
  busy_no_result := h.control.busy_no_result
  idle_result := h.control.idle_result
  cres_code := h.control.code
  can_cres := h.control.can_code
  gres_code := h.gres

/-! ### Buffers -/

/-- Copying the first `n` bytes copies a buffer whole when both are zero from `n` on (R34). -/
theorem copyFirst_eq_of_tails {n : Nat} {src dst : Buf} (hn : n ≤ 64) (hs : ∀ i, n ≤ i → byteAt src i = 0)
    (hd : ∀ i, n ≤ i → byteAt dst i = 0) : copyFirst n src dst = src := by
  refine buf_ext fun i _ => ?_
  rw [byteAt_copyFirst n src dst i hn]
  by_cases hi : i < n
  · rw [if_pos hi]
  · rw [if_neg hi, hs i (Nat.le_of_not_lt hi), hd i (Nat.le_of_not_lt hi)]

/-- A frame in progress with one byte more (R131): zero above it, and still begun with the header. -/
theorem AccOk.putByte_tail {p : Params} {idx : BitVec 6} {acc : Buf} (h : AccOk p idx acc) (b : Byte) (i : Nat)
    (hi : idx.toNat + 1 ≤ i) : byteAt (putByte acc idx.toNat b) i = 0 := by
  rw [byteAt_putByte, if_neg (by omega), h.tail i (by omega)]

theorem AccOk.putByte_head {p : Params} {idx : BitVec 6} {acc : Buf} (h : AccOk p idx acc) {b : Byte}
    (hb : idx.toNat = 0 → b = p.hdr) : byteAt (putByte acc idx.toNat b) 0 = p.hdr := by
  rw [byteAt_putByte]
  by_cases h0 : idx.toNat = 0
  · rw [if_pos ⟨h0.symm, by decide⟩, hb h0]
  · rw [if_neg (by omega), h.head (by omega)]

/-! ### The parts after each kind of change -/

theorem frameLen_pos {p : Params} (h : legalParams p = true) : 0 < frameLen p := by
  obtain ⟨hlen, -⟩ := (legalParams_iff p).1 h
  rw [frameLen_eq]
  split <;> omega

theorem AccOk.empty {p : Params} (h : legalParams p = true) : AccOk p 0 zeroBuf where
  idx_lt := frameLen_pos h
  tail i _ := byteAt_zeroBuf i
  head h0 := absurd h0 (by decide)
  can _ := rfl

theorem StageOk.empty (p : Params) : StageOk p zeroBuf false 0 where
  tail i _ := byteAt_zeroBuf i
  uart_empty _ _ := rfl
  can_empty _ _ := rfl
  uart _ := rfl
  no_id _ := rfl

theorem MeasOk.empty (p : Params) : MeasOk p zeroBuf 0 where
  tail i _ := byteAt_zeroBuf i
  valid _ := .inl rfl
  uart _ := rfl

/-- The frame goes on (R131, second step): the cursor stays below 64, since a frame of 64 bytes would be complete. -/
theorem AccOk.advance {p : Params} {idx : BitVec 6} {acc : Buf} (h : AccOk p idx acc) (hl : legalParams p = true)
    (hx : p.xport = .uart) {b : Byte} (hb : idx.toNat = 0 → b = p.hdr) (hne : idx.toNat + 1 ≠ p.len) :
    AccOk p (BitVec.ofNat 6 (idx.toNat + 1)) (putByte acc idx.toNat b) := by
  obtain ⟨-, hlen, -⟩ := (legalParams_iff p).1 hl
  have hF : frameLen p = p.len := by simp [frameLen, hx]
  have hlt := h.idx_lt
  have hidx : (BitVec.ofNat 6 (idx.toNat + 1)).toNat = idx.toNat + 1 := by
    rw [BitVec.toNat_ofNat]
    exact Nat.mod_eq_of_lt (by omega)
  constructor
  case idx_lt => omega
  case tail => rw [hidx]; exact h.putByte_tail b
  case head => exact fun _ => h.putByte_head hb
  case can => simp [hx]

/-- A complete frame is staged (R131, third step): it begins with the header, so it counts as arrived. -/
theorem StageOk.of_frame {p : Params} {stage frame : Buf} {pend : Bool} {id : CanId} (h : StageOk p stage pend id)
    (hx : p.xport = .uart) (htail : ∀ i, frameLen p ≤ i → byteAt frame i = 0) (hhead : byteAt frame 0 = p.hdr) :
    StageOk p frame pend id :=
  { h with
    tail := htail
    uart_empty := fun _ hne => absurd hhead hne
    can_empty := fun hc => by rw [hx] at hc; cases hc }

/-- An accepted CAN frame is staged and pending (R152). -/
theorem StageOk.of_payload {p : Params} {stage : Buf} {pend : Bool} {id : CanId} (h : StageOk p stage pend id)
    (hx : p.xport = .can) (data : CanData) (id' : CanId) : StageOk p (copyPayload data stage) true id' where
  tail i hi := by
    have h8 : frameLen p = 8 := by simp [frameLen, hx]
    rw [byteAt_copyPayload, if_neg (by omega), h.tail i hi]
  uart_empty hu := by rw [hx] at hu; cases hu
  can_empty _ hp := by cases hp
  uart hu := by rw [hx] at hu; cases hu
  no_id hp := by cases hp

/-- A staged frame is consumed (R184): without CAN_PEND, which a UART instance never has, STAGE_CANID is 0 as it was. -/
theorem StageOk.cleared {p : Params} {stage : Buf} {pend : Bool} {id : CanId} (h : StageOk p stage pend id) :
    StageOk p zeroBuf pend id :=
  { h with
    tail := fun i _ => byteAt_zeroBuf i
    uart_empty := fun _ _ => rfl
    can_empty := fun _ _ => rfl }

section
variable {x : Transport} {st : OrchState} {l : Life} {m : Mode} {c : ResultCode}

/-- An INIT or FETCH of a READY device ends with a result. -/
theorem ControlOk.result (hl : l = .ready) (hr : ReadyResult x c) : ControlOk x .idle l m c := by
  subst hl
  cases hr with
  | malformedFrame hx => constructor <;> simp [hx]
  | _ => constructor <;> simp

/-- A device that cannot be used says so (R171, R176). -/
theorem ControlOk.unavailable : ControlOk x .idle l m .transportUnavailable := by
  constructor <;> simp

theorem ControlOk.initing (hl : l = .uninit) : ControlOk x .initing l m .none := by
  constructor <;> simp [hl]

theorem ControlOk.sending (hl : l = .ready) (hm : m = .query) : ControlOk x .sending l m .none := by
  constructor <;> simp [hl, hm]

theorem ControlOk.waiting (hl : l = .ready) (hc : c = .none) : ControlOk x .waiting l m c := by
  constructor <;> simp [hl, hc]

/-- MODE matters to a request only (R171). -/
theorem ControlOk.with_mode (h : ControlOk x st l m c) (hs : st = .idle) (m' : Mode) : ControlOk x st l m' c :=
  { h with sending_query := fun h' => by rw [hs] at h'; cases h' }

end

/-! ### Reset, rules and settle keep it -/

/-- The reset state of a legal instance (R32): all buffers are empty, and the device is UNINIT and idle. -/
theorem resetOf_ruleInv {p : Params} (h : legalParams p = true) : (State.resetOf p).RuleInv where
  legal := h
  acc := .empty h
  stage := .empty p
  meas := .empty p
  tcnt_le := BitVec.le_refl 0
  not_ready _ := ⟨rfl, rfl, rfl, rfl, rfl, rfl⟩
  control := by constructor <;> simp
  gres := .inl rfl

theorem State.RuleInv.withInbox {s : State} (h : s.RuleInv) (rest : List InEvent) : (s.withInbox rest).RuleInv :=
  { h with }

section
variable {s : State} (h : s.RuleInv)
include h

theorem State.RuleInv.len_le : frameLen s.params ≤ 64 := by
  obtain ⟨-, hlen, -⟩ := (legalParams_iff s.params).1 h.legal
  rw [frameLen_eq]
  split <;> omega

/-- A READY device may hold any staged frame. -/
theorem State.RuleInv.withStage {stage : Buf} {pend : Bool} {id : CanId} (hlife : s.life = .ready)
    (hs : StageOk s.params stage pend id) : { s with stage := stage, stageCanId := id, canPend := pend }.RuleInv :=
  { h with stage := hs, not_ready := fun hl => absurd hlife hl }

/-- A complete UART frame goes from ACC to STAGE (R131, third step). -/
theorem State.RuleInv.frameReady {b : Byte} (hx : s.params.xport = .uart) (hlife : s.life = .ready)
    (hb : s.idx.toNat = 0 → b = s.params.hdr) (hlen : s.idx.toNat + 1 = s.params.len) :
    (frameReady (putByte s.acc s.idx.toNat b) s).RuleInv := by
  have hF : frameLen s.params = s.params.len := by simp [frameLen, hx]
  have htail : ∀ i, frameLen s.params ≤ i → byteAt (putByte s.acc s.idx.toNat b) i = 0 := fun i hi =>
    h.acc.putByte_tail b i (by omega)
  have hcopy : copyFirst s.params.len (putByte s.acc s.idx.toNat b) s.stage = putByte s.acc s.idx.toNat b := by
    rw [← hF]
    exact copyFirst_eq_of_tails h.len_le htail h.stage.tail
  unfold Machine.frameReady
  rw [hcopy]
  exact { h with
    acc := .empty h.legal
    stage := h.stage.of_frame hx htail (h.acc.putByte_head hb)
    not_ready := fun hl => absurd hlife hl }

/-- A wait that ends, with TX_DONE(0), with time up or with a malformed frame, leaves everything but STATE and CRES. -/
theorem State.RuleInv.post {r : ResultCode} (hlife : s.life = .ready) (hr : ReadyResult s.params.xport r) :
    (postCommandResult r s).RuleInv :=
  { h with control := .result hlife hr }

/-- A FETCH of a READY device starts its wait with the counter at 0 (R172, R175). -/
theorem State.RuleInv.enterWaiting (hlife : s.life = .ready) (hc : s.cres = .none) : (enterWaiting s).RuleInv :=
  { h with
    tcnt_le := BitVec.le_def.2 (Nat.zero_le _)
    not_ready := fun hl => absurd hlife hl
    control := .waiting hlife hc }

end

/-- Every rule keeps it: each effect is checked against the parts it writes. -/
theorem RuleEffect.ruleInv {i : Instr} {s u : State} (e : RuleEffect i s u) (h : s.RuleInv) : u.RuleInv := by
  cases e with
  | reset => exact { resetOf_ruleInv h.legal with }
  | quiet => exact { h with }
  | configure _ _ m _ _ _ _ lim _ _ hlife hidle =>
    have hlife' : s.life ≠ .ready := by rw [hlife]; decide
    obtain ⟨-, -, -, -, -, htcnt⟩ := h.not_ready hlife'
    have hle : s.tcnt ≤ lim := htcnt ▸ BitVec.le_def.2 (Nat.zero_le _)
    exact { h with tcnt_le := hle, control := h.control.with_mode hidle m }
  | init _ hlife =>
    exact { h with control := .initing hlife }
  | fetchUnavailable => exact { h with control := .unavailable }
  | fetchQuery _ _ _ hlife hmode =>
    exact { h with control := .sending hlife hmode }
  | fetchActive _ _ hlife =>
    exact { h with
      tcnt_le := BitVec.le_def.2 (Nat.zero_le _)
      not_ready := fun hl => absurd hlife hl
      control := .waiting hlife rfl }
  | getValue => exact { h with gres := .inr (.inl rfl) }
  | getFails _ _ _ hr => exact { h with gres := .inr (.inr hr) }
  | rxNoHeader _ _ _ hlife => exact { h with acc := .empty h.legal, not_ready := fun hl => absurd hlife hl }
  | rxLast _ _ hx hlife hb hlen => exact h.frameReady hx hlife hb hlen
  | rxMore _ _ hx hlife hb hlen =>
    exact { h with acc := h.acc.advance h.legal hx hb hlen, not_ready := fun hl => absurd hlife hl }
  | canRx _ _ id _ data _ hx hlife =>
    exact h.withStage hlife (h.stage.of_payload hx data id)
  | tick _ hwait hlt =>
    have hlife := h.control.waiting_ready hwait
    have hle : s.tcnt + 1 ≤ s.timeout := by bv_omega
    exact { h with
      tcnt_le := hle
      not_ready := fun hl => absurd hlife hl }
  | sent _ hsend =>
    exact h.enterWaiting (h.control.sending_query hsend).1 (h.control.busy_no_result (by rw [hsend]; decide))
  | sendFailed _ hsend =>
    exact h.post (h.control.sending_query hsend).1 .sendFailure
  | initUp =>
    exact { h with
      not_ready := fun hl => absurd rfl hl
      control := .result rfl .ok }
  | initDown _ hinit =>
    have hlife : s.life ≠ .ready := by rw [h.control.initing_uninit hinit]; decide
    exact { h with
      not_ready := fun _ => h.not_ready hlife
      control := .unavailable }

/-- A completion keeps it (R184, R185): an arrived frame that validates becomes MEAS whole. -/
theorem State.RuleInv.complete {s : State} (h : s.RuleInv) (hlife : s.life = .ready) (ha : arrived s = true) :
    (complete s).RuleInv := by
  obtain ⟨hx, hv, hc⟩ | ⟨hx, -, hc⟩ | ⟨hx, hc⟩ := complete_cases s
  · have hF : frameLen s.params = s.params.len := by simp [frameLen, hx]
    have hhead : byteAt s.stage 0 = s.params.hdr := by simpa [arrived_uart hx] using ha
    have hcopy : copyFirst s.params.len s.stage s.meas = s.stage := by
      rw [← hF]
      exact copyFirst_eq_of_tails h.len_le h.stage.tail h.meas.tail
    rw [hc, hcopy]
    exact { h.post hlife .ok with
      stage := h.stage.cleared
      meas := ⟨h.stage.tail, fun _ => .inr ⟨hhead, hv⟩, h.meas.uart⟩
      not_ready := fun hl => absurd hlife hl }
  · have hpost := h.post hlife (.malformedFrame hx)
    rw [hc]
    split
    · exact { hpost with stage := h.stage.cleared, not_ready := fun hl => absurd hlife hl }
    · exact { hpost with }
  · have hF : frameLen s.params = 8 := by simp [frameLen, hx]
    have hcopy : copyFirst 8 s.stage s.meas = s.stage := by
      rw [← hF]
      exact copyFirst_eq_of_tails h.len_le h.stage.tail h.meas.tail
    have hno : s.params.xport ≠ .uart := by rw [hx]; decide
    rw [hc, hcopy]
    exact { h.post hlife .ok with
      stage := .empty _
      meas := ⟨h.stage.tail, fun hu => absurd hu hno, fun hu => absurd hu hno⟩
      not_ready := fun hl => absurd hlife hl }

/-- Settle restores the whole invariant (R182, R183). -/
theorem State.RuleInv.inv_settle {s : State} (h : s.RuleInv) : (settle s).Inv := by
  refine State.RuleInv.inv ?_ (settle_settled s)
  obtain ⟨-, e⟩ | ⟨hw, ha, e⟩ | ⟨hw, -, -, e⟩ | ⟨-, -, -, e⟩ := settle_cases s
  · rw [e]; exact h
  · rw [e]; exact h.complete (h.control.waiting_ready hw) ha
  · rw [e]; exact h.post (h.control.waiting_ready hw) .noData
  · rw [e]; exact h

/-- An instruction keeps the invariant: its rule keeps all of it but `settled`, which settle restores. -/
theorem exec_inv {i : Instr} {s t : State} (hs : s.RuleInv) (h : exec i s = .next t) : t.Inv := by
  obtain ⟨-, u, e, rfl⟩ := exec_effect h
  exact (e.ruleInv hs).inv_settle

theorem resetOf_inv {p : Params} (h : legalParams p = true) : (State.resetOf p).Inv :=
  (resetOf_ruleInv h).inv (settled_of_not_waiting (by simp))

end Sys2Proof.Machine
end

section
/-! PROOFS. The registers of the map (10_state.md R45 to R58) as numbers: a register's value is the sum of its fields. -/

namespace Sys2Proof.Machine

/-- Concatenated fields add up, the upper one shifted by the width of the lower. -/
theorem toNat_append_eq_add {m n : Nat} (x : BitVec m) (y : BitVec n) : (x ++ y).toNat = x.toNat * 2 ^ n + y.toNat := by
  rw [BitVec.toNat_append, ← Nat.shiftLeft_add_eq_or_of_lt y.isLt, Nat.shiftLeft_eq]

/-! ### Which register an offset names -/

theorem readReg_status (s : State) : readReg 0x10 s = statusWord s := rfl

/-- Above MEAS_CANID the map holds the two windows and nothing else (R45, R57, R58). -/
theorem readReg_of_ge {addr : Addr} (h : 0x2C ≤ addr.toNat) (s : State) :
    readReg addr s =
      if 0x40 ≤ addr.toNat ∧ addr.toNat < 0x80 then windowWord s.stage ((addr.toNat - 0x40) / 4)
      else if 0x80 ≤ addr.toNat ∧ addr.toNat < 0xC0 then windowWord s.meas ((addr.toNat - 0x80) / 4)
      else 0 := by
  unfold readReg
  split
  case h_12 => rfl
  all_goals omega

theorem readReg_stageWindow (s : State) {k : Nat} (hk : k < 16) :
    readReg (BitVec.ofNat 8 (0x40 + 4 * k)) s = windowWord s.stage k := by
  have ha : (BitVec.ofNat 8 (0x40 + 4 * k)).toNat = 0x40 + 4 * k := by
    rw [BitVec.toNat_ofNat]
    exact Nat.mod_eq_of_lt (by omega)
  have hw : (0x40 + 4 * k - 0x40) / 4 = k := by omega
  rw [readReg_of_ge (by omega), ha, if_pos (by omega), hw]

theorem readReg_measWindow (s : State) {k : Nat} (hk : k < 16) :
    readReg (BitVec.ofNat 8 (0x80 + 4 * k)) s = windowWord s.meas k := by
  have ha : (BitVec.ofNat 8 (0x80 + 4 * k)).toNat = 0x80 + 4 * k := by
    rw [BitVec.toNat_ofNat]
    exact Nat.mod_eq_of_lt (by omega)
  have hw : (0x80 + 4 * k - 0x80) / 4 = k := by omega
  rw [readReg_of_ge (by omega), ha, if_neg (by omega), if_pos (by omega), hw]

/-! ### Their values -/

theorem statusWord_toNat (s : State) :
    (statusWord s).toNat = s.state.code.toNat + 4 * s.life.code.toNat + 16 * s.cres.code.toNat
      + 256 * s.gres.code.toNat + 4096 * (arrived s).toNat + 8192 * s.cmderr.toNat
      + 16384 * (xportBit s.params.xport).toNat := by
  simp only [statusWord, toNat_append_eq_add, BitVec.toNat_ofBool, BitVec.ofNat_eq_ofNat, BitVec.toNat_zero]
  omega

theorem ctrlWord_toNat (s : State) : (ctrlWord s).toNat = if s.mode = .query then 1 else 0 := by
  rw [ctrlWord, toNat_append_eq_add]
  cases s.mode <;> rfl

theorem devcfgWord_toNat (s : State) :
    (devcfgWord s).toNat =
      s.devId.toNat + 2 ^ 8 * s.hostId.toNat + 2 ^ 16 * s.dataId.toNat + 2 ^ 24 * s.prio.toNat := by
  simp only [devcfgWord, toNat_append_eq_add, BitVec.ofNat_eq_ofNat, BitVec.toNat_zero]
  omega

theorem syncWord_toNat (s : State) : (syncWord s).toNat = s.idx.toNat := by
  simp only [syncWord, toNat_append_eq_add, BitVec.ofNat_eq_ofNat, BitVec.toNat_zero, Nat.zero_mul, Nat.zero_add]

theorem canIdWord_toNat (id : CanId) : (canIdWord id).toNat = id.toNat := by
  simp only [canIdWord, toNat_append_eq_add, BitVec.ofNat_eq_ofNat, BitVec.toNat_zero, Nat.zero_mul, Nat.zero_add]

/-- On a legal UART instance `L` and `QLEN` fit their bytes of PARAM (R54). -/
theorem paramWord_uart_toNat {p : Params} (hl : legalParams p = true) (hx : p.xport = .uart) :
    (paramWord p).toNat = p.len + 2 ^ 8 * p.hdr.toNat + 2 ^ 16 * p.qlen + 2 ^ 24 * p.funcQuery.toNat := by
  obtain ⟨-, hlen, -, -, hqlen, -⟩ := (legalParams_iff p).1 hl
  have hw : paramWord p = p.funcQuery ++ BitVec.ofNat 8 p.qlen ++ p.hdr ++ BitVec.ofNat 8 p.len := by
    simp [paramWord, hx]
  simp only [hw, toNat_append_eq_add, BitVec.toNat_ofNat]
  omega

theorem paramWord_can {p : Params} (hx : p.xport = .can) : paramWord p = 8 := by simp [paramWord, hx]

theorem windowWord_toNat (b : Buf) (k : Nat) :
    (windowWord b k).toNat =
      (byteAt b (4 * k)).toNat + 2 ^ 8 * (byteAt b (4 * k + 1)).toNat
      + 2 ^ 16 * (byteAt b (4 * k + 2)).toNat + 2 ^ 24 * (byteAt b (4 * k + 3)).toNat := by
  simp only [windowWord, toNat_append_eq_add]
  omega

/-- Nothing has arrived after reset: the staged header byte would be 0, and a legal `HDR` is not (R10, R181). -/
theorem arrived_resetOf {p : Params} (h : legalParams p = true) : arrived (State.resetOf p) = false := by
  obtain ⟨-, -, hhdr, -⟩ := (legalParams_iff p).1 h
  cases hx : p.xport with
  | uart =>
    rw [arrived_uart hx]
    simpa using hhdr.symm
  | can => rw [arrived_can hx]; rfl

/-! ### Configuration writes -/

/-- In a settled state a register write answers what its rule makes, if that is settled too. -/
theorem exec_regWrite {addr : Addr} {v : Word} {s u : State} (hl : legalParams s.params = true)
    (ha : addr.toNat % 4 = 0) (hr : regWriteRule addr v s = u) (hu : u.Settled) :
    exec (.regWrite addr v) s = .next u := by
  subst hr
  exact (runAccess_legal hl ha).trans (congrArg _ (settle_of_settled hu))

theorem writeConfig_unlocked {write : State → State} {s : State} (hl : s.life = .uninit) (hs : s.state = .idle) :
    writeConfig write s = write s := by
  simp [writeConfig, unlocked, hl, hs]

theorem writeConfig_locked {write : State → State} {s : State} (h : s.life ≠ .uninit ∨ s.state ≠ .idle) :
    writeConfig write s = s := by
  have hu : ¬ unlocked s = true := by
    simp only [unlocked, Bool.and_eq_true, beq_iff_eq]
    tauto
  rw [writeConfig, if_neg hu]

/-- Bit 0 of the word is its parity (R46). -/
theorem writeCtrl_eq (v : Word) (s : State) :
    writeCtrl v s = { s with mode := if v.toNat % 2 = 1 then .query else .active } := by
  have hbit : v.getLsbD 0 = decide (v.toNat % 2 = 1) := Nat.testBit_zero v.toNat
  simp only [writeCtrl, hbit, decide_eq_true_eq]

/-- The four fields of the word, cut out by division (R47). -/
theorem writeDevcfg_eq (v : Word) (s : State) :
    writeDevcfg v s = { s with
      devId := BitVec.ofNat 8 v.toNat
      hostId := BitVec.ofNat 8 (v.toNat / 2 ^ 8)
      dataId := BitVec.ofNat 8 (v.toNat / 2 ^ 16)
      prio := BitVec.ofNat 5 (v.toNat / 2 ^ 24) } := by
  simp [writeDevcfg, BitVec.extractLsb', Nat.shiftRight_eq_div_pow]

end Sys2Proof.Machine
end

section
/-! PROOFS. The obligations of 10_state.md. -/

namespace Sys2Proof

open Machine

/-- Settles O48: an instruction's rule keeps every part of the invariant but `settled`, and settle restores that one; the
step's event leaves the inbox, which the invariant does not speak of. -/
theorem stepKeepsTheInvariant : Obligations.StepKeepsTheInvariant := by
  intro s t hs h
  obtain ⟨i, rest, hexec⟩ := step_next h
  exact exec_inv (hs.ruleInv.withInbox rest) hexec

/-- Settles O22: STATUS is the sum of its fields' codes; at reset all of them but XPORT are 0. -/
theorem statusShowsItsFields : Obligations.StatusShowsItsFields := by
  refine ⟨fun s v hl hs => exec_regWrite hl (by decide) rfl hs, fun p hp => ?_, fun s => ?_⟩
  · refine BitVec.eq_of_toNat_eq ?_
    rw [readReg_status, statusWord_toNat, arrived_resetOf hp]
    cases hx : p.xport <;> simp [hx, OrchState.code, Life.code, ResultCode.code, xportBit]
  · rw [readReg_status, statusWord_toNat]
    congr 6
    · cases s.state <;> rfl
    · cases s.life <;> rfl
    · cases s.cres <;> rfl
    · cases s.gres <;> rfl
    · cases hx : s.params.xport with
      | uart => simp [arrived_uart hx, Bool.toNat]
      | can => simp [arrived_can hx, Bool.toNat]
    · cases s.cmderr <;> rfl
    · cases s.params.xport <;> rfl

/-- Settles O23: one value lemma per register. -/
theorem registersShowTheirElements : Obligations.RegistersShowTheirElements := by
  intro s hl
  refine ⟨ctrlWord_toNat s, devcfgWord_toNat s, rfl, rfl, syncWord_toNat s, rfl, ?_, canIdWord_toNat _, canIdWord_toNat _,
    fun k hk => ?_, fun k hk => ?_⟩
  · show (paramWord s.params).toNat = _
    cases hx : s.params.xport with
    | uart => exact paramWord_uart_toNat hl hx
    | can => rw [paramWord_can hx]; rfl
  · rw [readReg_stageWindow s hk, windowWord_toNat]
  · rw [readReg_measWindow s hk, windowWord_toNat]

/-- Settles O54: no rule but RESET's writes MEAS, so settle did, and it writes MEAS only where it ends a wait with OK; the
rest is where that wait came from. -/
theorem measChangesOnlyByResetOrSuccess : Obligations.MeasChangesOnlyByResetOrSuccess := by
  intro i s t h hne
  obtain ⟨-, u, e, rfl⟩ := exec_effect h
  obtain ⟨hmeas, hid⟩ | hreset := e.meas_eq
  · obtain ⟨hmeas', hid'⟩ | ⟨hw, hcres, hstate, hstage⟩ := settle_meas u
    · rw [hmeas', hid', hmeas, hid] at hne
      simp at hne
    · refine .inr ⟨hcres, hstate, hstage, ?_⟩
      exact (e.of_waiting hw).imp_right fun h => h.imp_right fun ⟨hs, hl, hm, hi⟩ => ⟨hs, hl, hm, hi.fetch_word⟩
  · exact .inl hreset

/-- Settles O55: settle leaves LIFE, and of the rules only these two write it. -/
theorem onlyInitDoneAndResetWriteLife : Obligations.OnlyInitDoneAndResetWriteLife := by
  intro i s t h hne
  obtain ⟨-, u, e, rfl⟩ := exec_effect h
  obtain ⟨-, -, -, -, hlife, -⟩ := settle_frame u
  exact e.life_eq.resolve_left (hlife ▸ hne)

/-- Settles O56: a DEAD device is idle, so no INIT_DONE is due. -/
theorem onlyResetLeavesDead : Obligations.OnlyResetLeavesDead := by
  intro i s t hs hdead h hi
  by_contra hne
  obtain hreset | ⟨_, _, hinit⟩ := onlyInitDoneAndResetWriteLife i s t h (hdead ▸ hne)
  · exact hi hreset
  · rw [(hs.dead_idle hdead).1] at hinit
    cases hinit

/-- Settles O57: settle leaves the Device Context, and of the rules only RESET's and an unlocked write's write it. -/
theorem deviceContextIsImmutableAfterInit : Obligations.DeviceContextIsImmutableAfterInit := by
  intro i s t h hne
  obtain ⟨-, u, e, rfl⟩ := exec_effect h
  obtain ⟨-, -, -, -, -, -, -, hmode, hdev, hhost, hdata, hprio, htimeout, -⟩ := settle_frame u
  rw [hmode, hdev, hhost, hdata, hprio, htimeout] at hne
  refine e.context_eq.resolve_left ?_
  rintro ⟨hm, hd, hh, ha, hp, ht⟩
  simp [hm, hd, hh, ha, hp, ht] at hne

/-- Settles O60: settle leaves GRES and GETVAL, and of the rules only RESET's and GET's write them. -/
theorem onlyGetAndResetWriteGetResults : Obligations.OnlyGetAndResetWriteGetResults := by
  intro i s t h
  obtain ⟨-, u, e, rfl⟩ := exec_effect h
  obtain ⟨-, -, hgetval, -, -, hgres, -⟩ := settle_frame u
  rw [hgetval, hgres]
  obtain ⟨hg, hv⟩ | hreset | ⟨⟨chan, hget⟩, hok⟩ := e.get_results_eq
  · simp [hg, hv]
  · exact ⟨fun _ => .inl hreset, fun _ => .inl hreset⟩
  · exact ⟨fun _ => .inr hget.get_word, fun hne => .inr (hok.resolve_left hne)⟩

/-- Settles O24: the lock decides whether the write is made (R44), and the word is cut into fields by division. -/
theorem configIsWrittenOnlyBeforeInit : Obligations.ConfigIsWrittenOnlyBeforeInit := by
  intro v s hl
  refine ⟨fun hlife hidle => ?_, fun hlocked hs => ?_⟩
  · have hnw : s.state ≠ .waiting := by rw [hidle]; decide
    exact ⟨exec_regWrite hl (by decide) ((writeConfig_unlocked hlife hidle).trans (writeCtrl_eq v s))
        (settled_of_not_waiting hnw),
      exec_regWrite hl (by decide) ((writeConfig_unlocked hlife hidle).trans (writeDevcfg_eq v s))
        (settled_of_not_waiting hnw),
      exec_regWrite hl (by decide) (writeConfig_unlocked (write := writeTimeout v) hlife hidle)
        (settled_of_not_waiting hnw)⟩
  · exact ⟨exec_regWrite hl (by decide) (writeConfig_locked (write := writeCtrl v) hlocked) hs,
      exec_regWrite hl (by decide) (writeConfig_locked (write := writeDevcfg v) hlocked) hs,
      exec_regWrite hl (by decide) (writeConfig_locked (write := writeTimeout v) hlocked) hs⟩

/-- Settles O49: everything is empty, and a legal frame length is positive. -/
theorem resetStateHasTheInvariant : Obligations.ResetStateHasTheInvariant :=
  ⟨fun _ hp => resetOf_inv hp, resetOf_inv (by decide)⟩

end Sys2Proof
end

section
/-! PROOFS. The host's register space (20_memory.md): which accesses are refused (R74), what a read returns (R73, R75), which
bits of a written word count (R73), and that the address of the register space and the real period of a TICK do not (R83). -/

namespace Sys2Proof.Machine

/-! ### Refused accesses (R74) -/

theorem step_of_rejected {s : State} {e : InEvent} {rest : List InEvent} {r : Reject} (h : s.inbox = e :: rest)
    (hd : decode e = .rejected r) : step s = .refused (refusalOf r) := by
  simp [step, takeEvent, h, hd]

theorem decodeAccess_of_width_ne {width : Nat} (h : width ≠ 4) (addr : Addr) (i : Instr) :
    decodeAccess width addr i = .rejected .accessWidth := by
  simp [decodeAccess, h]

theorem wordAligned_of_ne {addr : Addr} (h : addr.toNat % 4 ≠ 0) : wordAligned addr = false := by
  simpa [wordAligned] using h

theorem decodeAccess_of_misaligned {addr : Addr} (h : addr.toNat % 4 ≠ 0) (i : Instr) :
    decodeAccess 4 addr i = .rejected .misaligned := by
  simp [decodeAccess, wordAligned_of_ne h]

theorem exec_of_misaligned {i : Instr} {s : State} (hl : legalParams s.params = true) (ha : i.aligned = false) :
    exec i s = .refused .misalignedAccess := by
  simp [exec_eq, hl, ha]

/-! ### Reads (R73, R75) -/

/-- A read writes nothing settle looks at, so in a settled state settle changes nothing after it. -/
theorem exec_regRead {addr : Addr} {s : State} (hl : legalParams s.params = true) (ha : addr.toNat % 4 = 0)
    (hs : s.Settled) : exec (.regRead addr) s = .next { s with readReturns := s.readReturns ++ [readReg addr s] } :=
  (runAccess_legal hl ha).trans
    (congrArg _ (settle_of_settled (settled_congr (t := regReadRule addr s) hs rfl rfl rfl rfl rfl rfl)))

theorem readReg_cmd (s : State) : readReg 0x0C s = 0 := rfl

theorem readReg_unmapped {addr : Addr} (h : unmapped addr) (s : State) : readReg addr s = 0 := by
  unfold unmapped at h
  rw [readReg_of_ge (by omega), if_neg (by omega), if_neg (by omega)]

theorem ctrlWord_lt (s : State) : (ctrlWord s).toNat < 2 ^ 1 := by
  rw [ctrlWord_toNat]
  split <;> decide

theorem devcfgWord_lt (s : State) : (devcfgWord s).toNat < 2 ^ 29 := by
  rw [devcfgWord_toNat]
  omega

theorem statusWord_lt (s : State) : (statusWord s).toNat < 2 ^ 15 := by
  have harr := Bool.toNat_lt (arrived s)
  have herr := Bool.toNat_lt s.cmderr
  rw [statusWord_toNat]
  omega

theorem syncWord_lt (s : State) : (syncWord s).toNat < 2 ^ 6 := by
  rw [syncWord_toNat]
  exact s.idx.isLt

theorem canIdWord_lt (id : CanId) : (canIdWord id).toNat < 2 ^ 29 := by
  rw [canIdWord_toNat]
  exact id.isLt

/-! ### Writes that change nothing, and the bits of a word that count (R73) -/

/-- Only CTRL, DEVCFG, TIMEOUT and CMD are writable (R45). -/
theorem regWriteRule_of_not_writable {addr : Addr} (h0 : addr ≠ 0x00) (h4 : addr ≠ 0x04) (h8 : addr ≠ 0x08)
    (hC : addr ≠ 0x0C) (v : Word) (s : State) : regWriteRule addr v s = s := by
  unfold regWriteRule
  split
  case h_1 ha => exact absurd (BitVec.eq_of_toNat_eq ha) h0
  case h_2 ha => exact absurd (BitVec.eq_of_toNat_eq ha) h4
  case h_3 ha => exact absurd (BitVec.eq_of_toNat_eq ha) h8
  case h_4 ha => exact absurd (BitVec.eq_of_toNat_eq ha) hC
  case h_5 => rfl

/-- Two words with one rule have one outcome, whatever the instance and the offset. -/
theorem exec_regWrite_congr {addr : Addr} {v v' : Word} (h : regWriteRule addr v = regWriteRule addr v') (s : State) :
    exec (.regWrite addr v) s = exec (.regWrite addr v') s :=
  congrArg (runAccess addr · s) h

/-- CTRL takes bit 0 (R46). -/
theorem writeCtrl_congr {v v' : Word} (h : v.toNat % 2 = v'.toNat % 2) : writeCtrl v = writeCtrl v' := by
  funext s
  rw [writeCtrl_eq, writeCtrl_eq, h]

/-- A field of a word is settled by the word's lowest `m` bits, if it lies in them. -/
theorem extractLsb'_congr {v v' : Word} {m k n : Nat} (h : v.toNat % 2 ^ m = v'.toNat % 2 ^ m) (hm : k + n ≤ m) :
    v.extractLsb' k n = v'.extractLsb' k n := by
  refine BitVec.eq_of_getLsbD_eq fun i hi => ?_
  have hbit := congrArg (Nat.testBit · (k + i)) h
  simp only [Nat.testBit_mod_two_pow, show k + i < m by omega, decide_true, Bool.true_and] at hbit
  rw [BitVec.getLsbD_extractLsb', BitVec.getLsbD_extractLsb', BitVec.getLsbD, BitVec.getLsbD, hbit]

/-- DEVCFG takes bits 28:0 (R47). -/
theorem writeDevcfg_congr {v v' : Word} (h : v.toNat % 2 ^ 29 = v'.toNat % 2 ^ 29) : writeDevcfg v = writeDevcfg v' := by
  funext s
  rw [writeDevcfg, writeDevcfg, extractLsb'_congr (k := 0) h (by decide), extractLsb'_congr (k := 8) h (by decide),
    extractLsb'_congr (k := 16) h (by decide), extractLsb'_congr (k := 24) h (by decide)]

/-- CMD takes CHAN and OP, bits 7:0 (R92, R94). -/
theorem command_congr {w w' : Word} (h : w.toNat % 2 ^ 8 = w'.toNat % 2 ^ 8) : command w = command w' := by
  have hop : cmdOp w = cmdOp w' := extractLsb'_congr h (by decide)
  have hchan : cmdChan w = cmdChan w' := extractLsb'_congr h (by decide)
  funext s
  rw [command, command, hop, hchan]

/-! ### No rule reads the base address or the period of a TICK (R83, U6)

A test of other fields, and an update of them by other fields, unfold to the same term on every platform: those goals close
by `rfl`. What is left of each rule is its branches. -/

/-- What the rule makes of a state is the same on every platform. -/
def PlatformBlind (rule : State → State) : Prop :=
  ∀ (base period : Nat) (s : State), rule (s.onPlatform base period) = (rule s).onPlatform base period

/-- A choice is blind if its test does not see the platform and its branches are blind. -/
theorem PlatformBlind.ite {c : State → Prop} [∀ s, Decidable (c s)] {yes no : State → State}
    (hc : ∀ base period s, c (State.onPlatform base period s) ↔ c s) (hyes : PlatformBlind yes)
    (hno : PlatformBlind no) : PlatformBlind fun s => if c s then yes s else no s := by
  intro base period s
  simp only [hc, hyes base period s, hno base period s, apply_ite (State.onPlatform base period)]

/-- The choice by transport, as a test of the parameters. -/
theorem complete_eq : complete = fun s => if s.params.xport = .uart then completeUart s else completeCan s := by
  funext s
  cases hx : s.params.xport with
  | uart => simp [complete_uart hx]
  | can => simp [complete_can hx]

/-- The choice by mode, as a test of the state. -/
theorem startFetch_eq :
    startFetch = fun s => if s.mode = .query then emit (request s) { s with state := .sending } else enterWaiting s := by
  funext s
  cases hm : s.mode with
  | active => simp [startFetch_active hm]
  | query => simp [startFetch_query hm, hm]

theorem dropMalformed_blind : PlatformBlind dropMalformed :=
  .ite (fun _ _ _ => .rfl) (fun _ _ _ => rfl) (fun _ _ _ => rfl)

theorem completeUart_blind : PlatformBlind completeUart :=
  .ite (fun _ _ _ => .rfl) (fun _ _ _ => rfl) fun base period s =>
    congrArg (postCommandResult .malformedFrame) (dropMalformed_blind base period s)

theorem complete_blind : PlatformBlind complete :=
  complete_eq ▸ .ite (fun _ _ _ => .rfl) completeUart_blind (fun _ _ _ => rfl)

theorem settle_blind : PlatformBlind settle :=
  .ite (fun _ _ _ => .rfl)
    (.ite (fun _ _ _ => .rfl) complete_blind (.ite (fun _ _ _ => .rfl) (fun _ _ _ => rfl) (fun _ _ _ => rfl)))
    (fun _ _ _ => rfl)

theorem initRule_blind : PlatformBlind initRule :=
  .ite (fun _ _ _ => .rfl) (fun _ _ _ => rfl) (fun _ _ _ => rfl)

theorem startFetch_blind : PlatformBlind startFetch :=
  startFetch_eq ▸ .ite (fun _ _ _ => .rfl) (fun _ _ _ => rfl) (fun _ _ _ => rfl)

theorem fetchRule_blind : PlatformBlind fetchRule :=
  .ite (fun _ _ _ => .rfl) (fun _ _ _ => rfl)
    (.ite (fun _ _ _ => .rfl) (fun _ _ _ => rfl) fun base period s =>
      startFetch_blind base period { s with cmderr := false, cres := .none })

theorem getRule_blind (chan : BitVec 4) : PlatformBlind (getRule chan) :=
  .ite (fun _ _ _ => .rfl) (fun _ _ _ => rfl) (.ite (fun _ _ _ => .rfl) (fun _ _ _ => rfl) (fun _ _ _ => rfl))

theorem command_blind (w : Word) : PlatformBlind (command w) := by
  intro base period s
  unfold command
  split
  case h_2 => exact initRule_blind base period s
  case h_3 => exact fetchRule_blind base period s
  case h_4 => exact getRule_blind _ base period s
  all_goals rfl

theorem writeConfig_blind {write : State → State} (h : PlatformBlind write) : PlatformBlind (writeConfig write) :=
  .ite (fun _ _ _ => .rfl) h (fun _ _ _ => rfl)

theorem regWriteRule_blind (addr : Addr) (v : Word) : PlatformBlind (regWriteRule addr v) := by
  intro base period s
  unfold regWriteRule
  split
  case h_4 => exact command_blind v base period s
  case h_5 => rfl
  all_goals exact writeConfig_blind (fun _ _ _ => rfl) base period s

theorem synchronize_blind (b : Byte) : PlatformBlind (synchronize b) :=
  .ite (fun _ _ _ => .rfl) (fun _ _ _ => rfl) (.ite (fun _ _ _ => .rfl) (fun _ _ _ => rfl) (fun _ _ _ => rfl))

theorem rxByteRule_blind (b : Byte) : PlatformBlind (rxByteRule b) :=
  .ite (fun _ _ _ => .rfl) (synchronize_blind b) (fun _ _ _ => rfl)

theorem canRxRule_blind (ide rtr : Bool) (id : CanId) (dlc : BitVec 4) (data : CanData) :
    PlatformBlind (canRxRule ide rtr id dlc data) :=
  .ite (fun _ _ _ => .rfl) (fun _ _ _ => rfl) (fun _ _ _ => rfl)

theorem tickRule_blind : PlatformBlind tickRule := .ite (fun _ _ _ => .rfl) (fun _ _ _ => rfl) (fun _ _ _ => rfl)

theorem txDoneRule_blind (ok : Bool) : PlatformBlind (txDoneRule ok) :=
  .ite (fun _ _ _ => .rfl) (fun _ _ _ => rfl) (.ite (fun _ _ _ => .rfl) (fun _ _ _ => rfl) (fun _ _ _ => rfl))

theorem initDoneRule_blind (ok : Bool) : PlatformBlind (initDoneRule ok) :=
  .ite (fun _ _ _ => .rfl) (fun _ _ _ => rfl) (.ite (fun _ _ _ => .rfl) (fun _ _ _ => rfl) (fun _ _ _ => rfl))

/-- No rule sees the platform: those without a lemma above are updates without a branch. -/
theorem ruleOf_blind (i : Instr) : PlatformBlind (ruleOf i) := by
  cases i with
  | init => exact initRule_blind
  | fetch => exact fetchRule_blind
  | get chan => exact getRule_blind chan
  | regWrite addr v => exact regWriteRule_blind addr v
  | rxByte b => exact rxByteRule_blind b
  | canRx ide rtr id dlc data => exact canRxRule_blind ide rtr id dlc data
  | tick => exact tickRule_blind
  | txDone ok => exact txDoneRule_blind ok
  | initDone ok => exact initDoneRule_blind ok
  | nop | reservedLow _ | reservedHigh _ | reset | regRead _ => exact fun _ _ _ => rfl

end Sys2Proof.Machine
end

section
/-! PROOFS. The obligations of 20_memory.md. -/

namespace Sys2Proof

open Machine

/-- Settles O12: every test a rule makes is of other parameters or other elements, and so are those of settle, of the
instance and of the offset. -/
theorem noRuleReadsBaseOrTickPeriod : Obligations.NoRuleReadsBaseOrTickPeriod := by
  intro i s base period
  have hlegal : legalParams (s.onPlatform base period).params = legalParams s.params := rfl
  rw [exec_eq, exec_eq, ruleOf_blind i base period s, settle_blind base period, hlegal]
  rw [apply_ite (mapNext (State.onPlatform base period)), apply_ite (mapNext (State.onPlatform base period))]
  rfl

/-- Settles O25: the value lemmas of the registers bound them, a write elsewhere has no rule, and each written word counts
by the bits its rule takes. -/
theorem unmappedReadOnlyAndReservedReadZeroAndIgnoreWrites :
    Obligations.UnmappedReadOnlyAndReservedReadZeroAndIgnoreWrites := by
  intro s hl
  refine ⟨fun addr ha hzero hs => ?_, ⟨ctrlWord_lt s, devcfgWord_lt s, statusWord_lt s, syncWord_lt s, canIdWord_lt _,
    canIdWord_lt _⟩, fun addr v ha h0 h4 h8 hC hs => ?_, fun v v' h => ?_, fun v v' h => ?_, fun v v' h => ?_⟩
  · have hread : readReg addr s = 0 := by
      obtain rfl | hun := hzero
      · exact readReg_cmd s
      · exact readReg_unmapped hun s
    rw [exec_regRead hl ha hs, hread]
  · exact exec_regWrite hl ha (regWriteRule_of_not_writable h0 h4 h8 hC v s) hs
  · exact exec_regWrite_congr (addr := 0x00) (congrArg writeConfig (writeCtrl_congr h)) s
  · exact exec_regWrite_congr (addr := 0x04) (congrArg writeConfig (writeDevcfg_congr h)) s
  · exact exec_regWrite_congr (addr := 0x0C) (command_congr h) s

/-- Settles O5: the decoder rejects such an access by its width, then by its offset, and `exec` by its offset (R74). -/
theorem accessOfOtherWidthOrOffsetIsRefused : Obligations.AccessOfOtherWidthOrOffsetIsRefused := by
  refine ⟨fun s rest width addr v hin => ?_, fun s addr v hl ha => ?_⟩
  · obtain ⟨e, i, hhead, hd⟩ : ∃ e i, s.inbox = e :: rest ∧ decode e = decodeAccess width addr i := by
      obtain h | h := hin
      · exact ⟨_, _, h, rfl⟩
      · exact ⟨_, _, h, rfl⟩
    refine ⟨fun hw => ?_, fun hw ha => ?_⟩
    · exact step_of_rejected hhead (hd.trans (decodeAccess_of_width_ne hw addr i))
    · subst hw
      exact step_of_rejected hhead (hd.trans (decodeAccess_of_misaligned ha i))
  · exact ⟨exec_of_misaligned hl (wordAligned_of_ne ha), exec_of_misaligned hl (wordAligned_of_ne ha)⟩

/-- Settles O21: the value is appended before settle, which a read gives nothing to do. -/
theorem regReadReturnsAndChangesNothing : Obligations.RegReadReturnsAndChangesNothing :=
  fun _ _ hl hs ha => exec_regRead hl ha hs

end Sys2Proof
end

section
/-! PROOFS. The encodings of 30_encoding.md: the rows of a command word (R92 to R95), the identifiers and frames of FSYNC
(R98, R102 to R104), and when it sends one (R96). -/

namespace Sys2Proof

open Machine

/-! ### Command words (R92 to R95) -/

theorem cmdChan_eq (w : Word) : cmdChan w = BitVec.ofNat 4 (w.toNat / 16) := by
  rw [cmdChan, BitVec.extractLsb', Nat.shiftRight_eq_div_pow]

section
variable {w : Word}

theorem decodeCommand_nop (h : w.toNat % 16 = 0) : decodeCommand w = .nop := by
  simp [decodeCommand, cmdOp_toNat, h]

theorem decodeCommand_init (h : w.toNat % 16 = 1) : decodeCommand w = .init := by
  simp [decodeCommand, cmdOp_toNat, h]

theorem decodeCommand_fetch (h : w.toNat % 16 = 2) : decodeCommand w = .fetch := by
  simp [decodeCommand, cmdOp_toNat, h]

theorem decodeCommand_get (h : w.toNat % 16 = 3) : decodeCommand w = .get (cmdChan w) := by
  simp [decodeCommand, cmdOp_toNat, h]

/-- From OP 4 on, one bit of OP chooses between the two reserved rows. -/
theorem decodeCommand_reserved (h : 4 ≤ w.toNat % 16) :
    decodeCommand w =
      if w.toNat % 16 < 8 then .reservedLow (BitVec.ofNat 2 w.toNat) else .reservedHigh (BitVec.ofNat 3 w.toNat) := by
  unfold decodeCommand
  rw [cmdOp_toNat]
  split
  case h_5 => rfl
  all_goals omega

end

/-- OP alone chooses the row, and only the row of GET reads CHAN (R94, R95). -/
theorem decodeCommand_congr {w w' : Word} (hop : w.toNat % 2 ^ 4 = w'.toNat % 2 ^ 4)
    (hchan : w.toNat % 2 ^ 4 = 3 → cmdChan w = cmdChan w') : decodeCommand w = decodeCommand w' := by
  have hfield : cmdOp w = cmdOp w' := extractLsb'_congr hop (by decide)
  have hlow : w.extractLsb' 0 2 = w'.extractLsb' 0 2 := extractLsb'_congr hop (by decide)
  have hhigh : w.extractLsb' 0 3 = w'.extractLsb' 0 3 := extractLsb'_congr hop (by decide)
  unfold decodeCommand
  rw [← hfield, ← hlow, ← hhigh]
  split
  case h_4 hget => rw [hchan (cmdOp_toNat w ▸ hget)]
  all_goals rfl

end Sys2Proof

namespace Sys2Proof.Machine

/-! ### Identifiers (R102, R103) -/

/-- What lies below the place of a field is added to it. -/
theorem shiftLeft_or_eq_add (x : Nat) {k low : Nat} (h : low < 2 ^ k) : x <<< k ||| low = x * 2 ^ k + low := by
  rw [← Nat.shiftLeft_add_eq_or_of_lt h, Nat.shiftLeft_eq]

/-- Each field lies above all the next ones, so joining them by bits adds them. -/
theorem canid_eq_add (p d dst org : Nat) :
    canid p d dst org = p % 2 ^ 5 * 2 ^ 24 + d % 2 ^ 8 * 2 ^ 16 + dst % 2 ^ 8 * 2 ^ 8 + org % 2 ^ 8 := by
  have mask5 (x : Nat) : x &&& 0x1F = x % 2 ^ 5 := Nat.and_two_pow_sub_one_eq_mod x 5
  have mask8 (x : Nat) : x &&& 0xFF = x % 2 ^ 8 := Nat.and_two_pow_sub_one_eq_mod x 8
  rw [canid, mask5, mask8, mask8, mask8, Nat.or_assoc, Nat.or_assoc, shiftLeft_or_eq_add (k := 8) _ (by omega),
    shiftLeft_or_eq_add (k := 16) _ (by omega), shiftLeft_or_eq_add (k := 24) _ (by omega)]
  simp only [Nat.add_assoc]

theorem canid_lt (p d dst org : Nat) : canid p d dst org < 2 ^ 29 := by
  rw [canid_eq_add]
  omega

/-- No field of REQ_ID is cut by its mask. -/
theorem reqId_toNat (s : State) :
    (reqId s).toNat =
      s.prio.toNat * 2 ^ 24 + s.dataId.toNat * 2 ^ 16 + s.devId.toNat * 2 ^ 8 + s.hostId.toNat := by
  rw [reqId, BitVec.toNat_ofNat, Nat.mod_eq_of_lt (canid_lt _ _ _ _), canid_eq_add]
  simp only [BitVec.toNat_mod_cancel]

/-! ### The query frame (R98, R173) -/

theorem queryBody_length {s : State} (h : 4 ≤ s.params.qlen) : (queryBody s).length = s.params.qlen - 1 := by
  simp only [queryBody, List.length_append, List.length_cons, List.length_nil, List.length_replicate]
  omega

theorem queryFrame_length {s : State} (h : 4 ≤ s.params.qlen) : (queryFrame s).length = s.params.qlen := by
  rw [queryFrame, List.length_append, queryBody_length h, List.length_singleton]
  omega

/-- Before the checksum the frame is its body. -/
theorem take_queryFrame {s : State} (h : 4 ≤ s.params.qlen) : (queryFrame s).take (s.params.qlen - 1) = queryBody s :=
  List.take_left' (queryBody_length h)

/-- From position 3 on the body is padding. -/
theorem getElem?_queryBody_pad {s : State} {i : Nat} (h3 : 3 ≤ i) (hi : i + 2 ≤ s.params.qlen) :
    (queryBody s)[i]? = some s.params.qpad := by
  rw [queryBody, List.getElem?_append_right h3]
  exact List.getElem?_replicate_of_lt (by simp only [List.length_cons, List.length_nil]; omega)

theorem getElem?_queryFrame_of_lt {s : State} (h : 4 ≤ s.params.qlen) {i : Nat} (hi : i + 2 ≤ s.params.qlen) :
    (queryFrame s)[i]? = (queryBody s)[i]? :=
  List.getElem?_append_left (by rw [queryBody_length h]; omega)

/-- The last byte is the sum of the body: the checksum does not read the byte that holds its place. -/
theorem queryFrame_last {s : State} (h : 4 ≤ s.params.qlen) :
    (queryFrame s).getD (s.params.qlen - 1) 0 = BitVec.ofNat 8 (byteSum (queryBody s)) := by
  have hlen := queryBody_length h
  rw [queryFrame, ← hlen, List.getD_append_right _ _ _ _ le_rfl, checksum, ← hlen, List.take_left, Nat.sub_self]
  rfl

theorem request_uart {s : State} (h : s.params.xport = .uart) : request s = .txUart (queryFrame s) := by
  simp [request, h]

theorem request_can {s : State} (h : s.params.xport = .can) :
    request s = .txCan (reqId s) 8 (Vector.replicate 8 0) := by
  simp [request, h]

/-! ### When an output is emitted (R96) -/

/-- An instruction that is the command `c` has its rule (R212). -/
theorem ruleOf_of_asks {i c : Instr} (h : i.Asks c) : ruleOf i = ruleOf c := by
  obtain rfl | ⟨w, rfl, hw⟩ := h
  · rfl
  · exact hw ▸ command_eq_ruleOf w

/-- The accepted FETCH of a READY device in query mode. -/
theorem fetchRule_query {s : State} (hs : s.state = .idle) (hl : s.life = .ready) (hm : s.mode = .query) :
    fetchRule s = emit (request s) { s with cmderr := false, cres := .none, state := .sending } := by
  rw [fetchRule, if_neg (not_not.2 hs), if_neg (not_not.2 hl)]
  exact startFetch_query (s := { s with cmderr := false, cres := .none }) hm

/-- `u` has the outputs of `s`, or one more, with which IDLE is left for INITING or SENDING. -/
def EmitsAtMostOne (s u : State) : Prop :=
  u.outputs = s.outputs ∨
    (s.state = .idle ∧
      ((u.state = .initing ∧ u.outputs = s.outputs ++ [.initReq]) ∨
       (u.state = .sending ∧ u.outputs = s.outputs ++ [request s])))

/-- Of the effects a rule can have, the accepted INIT and the query-mode FETCH emit. -/
theorem ruleOf_emitsAtMostOne (i : Instr) (s : State) : EmitsAtMostOne s (ruleOf i s) := by
  have e := ruleOf_effect i s
  generalize hu : ruleOf i s = u at e ⊢
  cases e with
  | init hi hl hs => exact .inr ⟨hs, .inl ⟨rfl, rfl⟩⟩
  | fetchQuery o hi hs hl hm =>
    have hrule := (congrFun (ruleOf_of_asks hi) s).trans (fetchRule_query hs hl hm)
    rw [← hu, hrule]
    exact .inr ⟨hs, .inr ⟨rfl, rfl⟩⟩
  | _ => exact .inl rfl

@[simp] theorem settle_outputs (s : State) : (settle s).outputs = s.outputs := by
  simp only [settle_frame]

/-- Settle emits nothing, and INITING and SENDING are no wait for it to end. -/
theorem EmitsAtMostOne.settle {s u : State} (h : EmitsAtMostOne s u) : EmitsAtMostOne s (settle u) := by
  obtain hsame | ⟨hs, hemit⟩ := h
  · exact .inl ((settle_outputs u).trans hsame)
  · have hwait : u.state ≠ .waiting := by
      obtain ⟨hst, _⟩ | ⟨hst, _⟩ := hemit <;> simp [hst]
    rw [settle_of_not_waiting hwait]
    exact .inr ⟨hs, hemit⟩

end Sys2Proof.Machine
end

section
/-! PROOFS. The obligations of 30_encoding.md. -/

namespace Sys2Proof

open Machine

/-- Settles O1: the decoder reads each constructor's spelling back, the commands through their word (R92, R93), the
accesses because they are aligned and no write of CMD (R74, R212). -/
theorem decodeOfEncodeIsTheInstruction : Obligations.DecodeOfEncodeIsTheInstruction :=
  fun _ hw => decode_encode hw

/-- Settles O3: the row of each OP value, the free bits of a reserved one cut out of the word. -/
theorem commandWordDecodesByItsOpField : Obligations.CommandWordDecodesByItsOpField := by
  intro w
  refine ⟨decodeCommand_nop, decodeCommand_init, decodeCommand_fetch, fun h => ?_, fun h4 h8 => ?_, fun h8 => ?_⟩
  · rw [decodeCommand_get h, cmdChan_eq]
  · rw [decodeCommand_reserved h4, if_pos h8]
  · rw [decodeCommand_reserved (by omega), if_neg (by omega)]

/-- Settles O2: equal OP fields choose the same row, and equal CHAN fields the same channel. -/
theorem commandIgnoresReservedBitsAndUnusedChan : Obligations.CommandIgnoresReservedBitsAndUnusedChan := by
  intro w w' hop hchan
  refine decodeCommand_congr hop fun hget => BitVec.eq_of_toNat_eq ?_
  rw [cmdChan_eq, cmdChan_eq, BitVec.toNat_ofNat, BitVec.toNat_ofNat]
  exact hchan hget

/-- Settles O17: the frame is its body and the sum of the body, at the length R10 allows, and REQ_ID is the sum of its
fields. -/
theorem requestFrameContents : Obligations.RequestFrameContents := by
  intro s hl
  obtain ⟨_, _, _, hq, _, _⟩ := (legalParams_iff s.params).1 hl
  refine ⟨fun hx => ⟨queryFrame s, request_uart hx, queryFrame_length hq, rfl, rfl, rfl, fun i h3 hi => ?_, ?_⟩,
    fun hx => ⟨reqId s, request_can hx, reqId_toNat s⟩⟩
  · rw [getElem?_queryFrame_of_lt hq hi, getElem?_queryBody_pad h3 hi]
  · rw [queryFrame_last hq, take_queryFrame hq, BitVec.toNat_ofNat]
    rfl

/-- Settles O44: each field is below the next one's place, and the highest ends at bit 28. -/
theorem canIdPacksItsFields : Obligations.CanIdPacksItsFields :=
  fun p d dst org => ⟨canid_lt p d dst org, canid_eq_add p d dst org⟩

/-- Settles O58: the rule emits at most one output, and settle none. -/
theorem outputsAreEmittedOneAtATimeFromIdle : Obligations.OutputsAreEmittedOneAtATimeFromIdle := by
  intro i s t h
  rw [(exec_next h).2]
  exact (ruleOf_emitsAtMostOne i s).settle

/-- Settles O4: the decoder evaluates each event. -/
theorem sampleEventsDecode : Obligations.SampleEventsDecode := by
  unfold Obligations.SampleEventsDecode
  decide

end Sys2Proof
end

section
/-! PROOFS. The checksum validator of 40_checksum.md: the checksum in numbers (R120), what a changed byte does to it
(R121), and the frame of a query (R124). -/

namespace Sys2Proof.Machine

/-! ### The checksum in numbers (R120, R121) -/

theorem checksum_toNat (bs : List Byte) (n : Nat) : (checksum bs n).toNat = byteSum (bs.take (n - 1)) % 256 :=
  BitVec.toNat_ofNat _ 8

theorem validate_iff (bs : List Byte) (n : Nat) : validate bs n = true ↔ checksum bs n = bs.getD (n - 1) 0 :=
  beq_iff_eq

theorem validate_eq_false_iff (bs : List Byte) (n : Nat) :
    validate bs n = false ↔ checksum bs n ≠ bs.getD (n - 1) 0 :=
  beq_eq_false_iff_ne

/-! ### A changed byte (R121) -/

/-- Exchanging one byte of a sequence moves its sum by the difference of the two bytes. -/
theorem byteSum_set {bs : List Byte} {i : Nat} (b : Byte) (h : i < bs.length) :
    (bs.getD i 0).toNat + byteSum (bs.set i b) = b.toNat + byteSum bs := by
  have hperm : (bs.getD i 0 :: bs.set i b).Perm (b :: bs) := by
    simpa [h] using bs.getD_set_perm_cons i b
  simpa [byteSum] using (hperm.map BitVec.toNat).sum_eq

/-- The checksum of `n` bytes does not read byte `n - 1`. -/
theorem checksum_set_last (bs : List Byte) (n : Nat) (b : Byte) : checksum (bs.set (n - 1) b) n = checksum bs n := by
  rw [checksum, List.take_set_of_le le_rfl, checksum]

/-- Two different bytes differ by less than 256, so a changed summed byte changes the sum modulo 256. -/
theorem checksum_set_ne {bs : List Byte} {n i : Nat} {b : Byte} (hn : n ≤ bs.length) (hi : i < n - 1)
    (hb : b ≠ bs.getD i 0) : checksum (bs.set i b) n ≠ checksum bs n := by
  intro heq
  have hsum : (bs.getD i 0).toNat + byteSum ((bs.set i b).take (n - 1)) = b.toNat + byteSum (bs.take (n - 1)) := by
    have htake : (bs.take (n - 1)).getD i 0 = bs.getD i 0 := by
      simp [List.getD_eq_getElem?_getD, hi]
    rw [List.take_set, ← htake]
    exact byteSum_set b (by rw [List.length_take]; omega)
  have hmod : byteSum ((bs.set i b).take (n - 1)) % 256 = byteSum (bs.take (n - 1)) % 256 := by
    rw [← checksum_toNat, ← checksum_toNat, heq]
  have hne : b.toNat ≠ (bs.getD i 0).toNat := fun h => hb (BitVec.eq_of_toNat_eq h)
  omega

end Sys2Proof.Machine
end

section
/-! PROOFS. The obligations of 40_checksum.md. -/

namespace Sys2Proof

open Machine

/-- Settles O45: a byte holds the sum modulo 256, and bytes are equal when their numbers are. -/
theorem checksumIsTheSumOfAllButTheLastByte : Obligations.ChecksumIsTheSumOfAllButTheLastByte :=
  fun bs n _ _ => ⟨checksum_toNat bs n, (validate_iff bs n).trans BitVec.toNat_inj.symm⟩

/-- Settles O46: a changed last byte leaves the checksum it no longer equals, and any other changed byte leaves the last
byte but not the checksum. -/
theorem singleByteErrorIsDetected : Obligations.SingleByteErrorIsDetected := by
  intro bs n i b hn hi hv hb
  have hsum : checksum bs n = bs.getD (n - 1) 0 := (validate_iff bs n).1 hv
  refine (validate_eq_false_iff _ n).2 ?_
  obtain hlast | hlt : i = n - 1 ∨ i < n - 1 := by omega
  · subst hlast
    have hget : (bs.set (n - 1) b).getD (n - 1) 0 = b := by
      simp [List.getD_eq_getElem?_getD, hi.trans_le hn]
    rw [checksum_set_last, hget, hsum]
    exact hb.symm
  · have hget : (bs.set i b).getD (n - 1) 0 = bs.getD (n - 1) 0 := by
      simp [List.getD_eq_getElem?_getD, List.getElem?_set_ne hlt.ne]
    rw [hget, ← hsum]
    exact checksum_set_ne hn hlt hb

/-- Settles O47: the sum that ends the frame is that of its body, which is all of the frame that the validator sums. -/
theorem queryFrameValidates : Obligations.QueryFrameValidates := by
  intro s hl
  obtain ⟨_, _, _, hq, _, _⟩ := (legalParams_iff s.params).1 hl
  rw [validate_iff, checksum, take_queryFrame hq, queryFrame_last hq]

end Sys2Proof
end

section
/-! PROOFS. The byte-stream synchronizer (41_frame_sync.md): its transition in equations, one per place of the cursor
(R131), and what a run of bytes makes of ACC, IDX and STAGE and how many frames it completes (R139). -/

namespace Sys2Proof.Machine

/-! ### One byte (R131) -/

section
variable {b : Byte} {s : State}

theorem synchronize_dropped (h0 : s.idx.toNat = 0) (hb : b ≠ s.params.hdr) :
    synchronize b s = { s with idx := 0, acc := zeroBuf } := by
  simp [synchronize, h0, hb]

theorem synchronize_stored (hb : s.idx.toNat = 0 → b = s.params.hdr) (hlen : s.idx.toNat + 1 ≠ s.params.len) :
    synchronize b s = { s with idx := s.idx + 1, acc := putByte s.acc s.idx.toNat b } := by
  have hdrop : ¬ (s.idx.toNat + 1 = 1 ∧ b ≠ s.params.hdr) := fun ⟨h1, hne⟩ => hne (hb (by omega))
  have hidx : BitVec.ofNat 6 (s.idx.toNat + 1) = s.idx + 1 := by
    rw [BitVec.ofNat_add, BitVec.ofNat_toNat, BitVec.setWidth_eq]
    rfl
  unfold synchronize
  rw [if_neg hdrop, if_neg hlen, hidx]

/-- At the last place the header does not matter: `L` is at least 2, so it is not the first. -/
theorem synchronize_last (h2 : 2 ≤ s.params.len) (hlen : s.idx.toNat + 1 = s.params.len) :
    synchronize b s = frameReady (putByte s.acc s.idx.toNat b) s := by
  have hdrop : ¬ (s.idx.toNat + 1 = 1 ∧ b ≠ s.params.hdr) := fun ⟨h1, _⟩ => by omega
  unfold synchronize
  rw [if_neg hdrop, if_pos hlen]

theorem exec_rxByte_ready (hl : legalParams s.params = true) (hx : s.params.xport = .uart) (hlife : s.life = .ready) :
    exec (.rxByte b) s = .next (settle (synchronize b s)) := by
  have hrule : rxByteRule b s = synchronize b s := if_pos ⟨hx, hlife⟩
  exact (runEvent_legal hl).trans (by rw [hrule])

theorem rxByteRule_ignored (h : s.params.xport ≠ .uart ∨ s.life ≠ .ready) : rxByteRule b s = s :=
  if_neg fun ⟨hx, hlife⟩ => h.elim (· hx) (· hlife)

/-- A cursor below the last place advances without wrapping. -/
theorem idx_add_one_toNat (hl : legalParams s.params = true) (h : s.idx.toNat + 1 < s.params.len) :
    (s.idx + 1).toNat = s.idx.toNat + 1 := by
  obtain ⟨-, hlen, -⟩ := (legalParams_iff s.params).1 hl
  bv_omega

end

/-! ### Bytes written one after the other -/

/-- The buffer with `bs` written from place `n` on: ACC after `bs` has been stored. -/
def putBytes : Buf → Nat → List Byte → Buf
  | buf, _, [] => buf
  | buf, n, b :: bs => putBytes (putByte buf n b) (n + 1) bs

theorem putBytes_concat (buf : Buf) (n : Nat) (bs : List Byte) (b : Byte) :
    putBytes buf n (bs ++ [b]) = putByte (putBytes buf n bs) (n + bs.length) b := by
  induction bs generalizing buf n with
  | nil => rfl
  | cons c cs ih =>
    rw [List.cons_append, putBytes, ih, putBytes, List.length_cons, Nat.add_right_comm, Nat.add_assoc]

theorem byteAt_putBytes {n : Nat} {bs : List Byte} (h : n + bs.length ≤ 64) (buf : Buf) (i : Nat) :
    byteAt (putBytes buf n bs) i = if n ≤ i ∧ i < n + bs.length then bs.getD (i - n) 0 else byteAt buf i := by
  induction bs generalizing buf n with
  | nil =>
    rw [putBytes, if_neg (by rw [List.length_nil]; omega)]
  | cons b bs ih =>
    rw [List.length_cons] at h ⊢
    rw [putBytes, ih (by omega), byteAt_putByte]
    obtain hlt | rfl | hgt := Nat.lt_trichotomy i n
    · rw [if_neg (by omega), if_neg (by omega), if_neg (by omega)]
    · rw [if_neg (by omega), if_pos ⟨rfl, by omega⟩, if_pos (by omega), Nat.sub_self, List.getD_cons_zero]
    · have hsub : i - n = i - (n + 1) + 1 := by omega
      rw [hsub, List.getD_cons_succ]
      by_cases hi : i < n + (bs.length + 1)
      · rw [if_pos (by omega), if_pos (by omega)]
      · rw [if_neg (by omega), if_neg (by omega), if_neg (by omega)]

/-- A buffer that begins with the bytes of `bs` has `bs` as the beginning of its list. -/
theorem take_toList_eq {buf : Buf} {bs : List Byte} (hlen : bs.length ≤ 64)
    (h : ∀ i, i < bs.length → byteAt buf i = bs.getD i 0) : buf.toList.take bs.length = bs := by
  refine List.ext_getElem (by rw [List.length_take, length_toList]; omega) fun i _ hi => ?_
  have hbyte := h i hi
  rw [byteAt_of_lt buf (by omega), List.getD_eq_getElem bs 0 hi] at hbyte
  rw [List.getElem_take, Vector.getElem_toList, hbyte]

/-- Such a buffer validates as `bs` does. -/
theorem validate_toList {buf : Buf} {bs : List Byte} (h1 : 1 ≤ bs.length) (hlen : bs.length ≤ 64)
    (h : ∀ i, i < bs.length → byteAt buf i = bs.getD i 0) :
    validate buf.toList bs.length = validate bs bs.length :=
  validate_congr h1 (by rw [take_toList_eq hlen h, List.take_length])

/-! ### A completed frame (R133, R184) -/

/-- `s` after the bytes that end its frame in progress, before settle: STAGE holds the frame, ACC is empty (R131). -/
def stagedBy (bs : List Byte) (s : State) : State := frameReady (putBytes s.acc s.idx.toNat bs) s

/-- The frame is what was in ACC, then the bytes that end it. -/
theorem byteAt_stagedBy {bs : List Byte} {s : State} (hl : legalParams s.params = true)
    (hlen : s.idx.toNat + bs.length = s.params.len) (i : Nat) :
    byteAt (stagedBy bs s).stage i =
      if i < s.idx.toNat then byteAt s.acc i
      else if i < s.params.len then bs.getD (i - s.idx.toNat) 0
      else byteAt s.stage i := by
  obtain ⟨-, h64, -⟩ := (legalParams_iff s.params).1 hl
  rw [stagedBy, frameReady, byteAt_copyFirst _ _ _ _ h64, byteAt_putBytes (by omega)]
  by_cases hacc : i < s.idx.toNat
  · rw [if_pos (by omega), if_neg (by omega), if_pos hacc]
  · rw [if_neg hacc]
    by_cases hi : i < s.params.len
    · rw [if_pos hi, if_pos hi, if_pos (by omega)]
    · rw [if_neg hi, if_neg hi]

/-- Of a frame received whole, STAGE holds the frame. -/
theorem byteAt_stagedBy_frame {frame : List Byte} {s : State} (hl : legalParams s.params = true) (h0 : s.idx = 0)
    (hlen : frame.length = s.params.len) (i : Nat) :
    byteAt (stagedBy frame s).stage i = if i < s.params.len then frame.getD i 0 else byteAt s.stage i := by
  have hidx : s.idx.toNat = 0 := congrArg BitVec.toNat h0
  rw [byteAt_stagedBy hl (by omega), hidx, if_neg (Nat.not_lt_zero i), Nat.sub_zero]

/-- It begins with the header if the frame does (R133). -/
theorem byteAt_stagedBy_frame_zero {frame : List Byte} {s : State} (hl : legalParams s.params = true) (h0 : s.idx = 0)
    (hlen : frame.length = s.params.len) (hhead : frame.head? = some s.params.hdr) :
    byteAt (stagedBy frame s).stage 0 = s.params.hdr := by
  obtain ⟨h2, -⟩ := (legalParams_iff s.params).1 hl
  rw [byteAt_stagedBy_frame hl h0 hlen, if_pos (by omega), List.getD_eq_getElem?_getD, ← List.head?_eq_getElem?, hhead,
    Option.getD_some]

/-- It validates if the frame does (R121). -/
theorem validate_stagedBy_frame {frame : List Byte} {s : State} (hl : legalParams s.params = true) (h0 : s.idx = 0)
    (hlen : frame.length = s.params.len) :
    validate (stagedBy frame s).stage.toList s.params.len = validate frame s.params.len := by
  obtain ⟨h2, h64, -⟩ := (legalParams_iff s.params).1 hl
  have hbytes := byteAt_stagedBy_frame hl h0 hlen
  rw [← hlen] at h2 h64 hbytes ⊢
  exact validate_toList (by omega) h64 fun i hi => (hbytes i).trans (if_pos hi)

/-- Outside WAITING nobody consumes it (R182). -/
theorem settle_stagedBy {s : State} (hw : s.state ≠ .waiting) (bs : List Byte) :
    settle (stagedBy bs s) = stagedBy bs s :=
  settle_of_not_waiting (s := stagedBy bs s) hw

theorem exec_rxByte_last {b : Byte} {s : State} (hl : legalParams s.params = true) (hx : s.params.xport = .uart)
    (hlife : s.life = .ready) (hlen : s.idx.toNat + 1 = s.params.len) :
    exec (.rxByte b) s = .next (settle (stagedBy [b] s)) := by
  obtain ⟨h2, -⟩ := (legalParams_iff s.params).1 hl
  rw [exec_rxByte_ready hl hx hlife, synchronize_last h2 hlen]
  rfl

/-- A staged frame that validates ends a wait with OK (R182, R184). -/
theorem settle_valid {s : State} (hw : s.state = .waiting) (hx : s.params.xport = .uart)
    (hhead : byteAt s.stage 0 = s.params.hdr) (hv : validate s.stage.toList s.params.len = true) :
    settle s = { s with
      meas := copyFirst s.params.len s.stage s.meas, stage := zeroBuf, cres := .ok, state := .idle } := by
  have harrived : arrived s = true := by rw [arrived_uart hx]; exact beq_iff_eq.2 hhead
  rw [settle_arrived hw harrived, complete_uart hx, completeUart, if_pos hv]
  rfl

/-! ### A run of bytes (R139)

The runs below are of settled machines, which may be WAITING: bytes that complete no frame give settle nothing to do. -/

/-- A settled machine that accepts bytes (R130, R183). -/
structure State.Receiving (s : State) : Prop where
  legal : legalParams s.params = true
  uart : s.params.xport = .uart
  ready : s.life = .ready
  settled : s.Settled

/-- The bytes take `s` to `t` and complete `k` frames. -/
def Receives (bs : List Byte) (s t : State) (k : Nat) : Prop :=
  execAll (rxBytes bs) s = .next t ∧ completions bs s = k

theorem Receives.nil (s : State) : Receives [] s s 0 := ⟨rfl, rfl⟩

theorem Receives.append {bs cs : List Byte} {s t u : State} {k m : Nat} (h : Receives bs s t k)
    (h' : Receives cs t u m) : Receives (bs ++ cs) s u (k + m) := by
  obtain ⟨hrun, hk⟩ := h
  obtain ⟨hrun', hm⟩ := h'
  constructor
  · rw [rxBytes, List.map_append]
    exact (execAll_append _ _ _ _ hrun).trans hrun'
  · rw [completions_append _ _ _ _ hrun, hk, hm]

theorem Receives.single {b : Byte} {s t : State} (h : exec (.rxByte b) s = .next t) :
    Receives [b] s t (if completesFrame b s then 1 else 0) := by
  constructor
  · simp [rxBytes, execAll, h]
  · simp [completions, h]

section
variable {s : State} (h : s.Receiving)
include h

theorem State.Receiving.two_le_len : 2 ≤ s.params.len := ((legalParams_iff s.params).1 h.legal).1

theorem State.Receiving.withAcc (n : BitVec 6) (buf : Buf) : { s with idx := n, acc := buf }.Receiving :=
  ⟨h.legal, h.uart, h.ready, h.settled⟩

theorem State.Receiving.after_staging (hw : s.state ≠ .waiting) (bs : List Byte) : (stagedBy bs s).Receiving :=
  ⟨h.legal, h.uart, h.ready, settled_of_not_waiting (s := stagedBy bs s) hw⟩

theorem State.Receiving.completesFrame_iff {b : Byte} :
    completesFrame b s = true ↔ (s.idx.toNat = 0 → b = s.params.hdr) ∧ s.idx.toNat + 1 = s.params.len := by
  simp [completesFrame, h.uart, h.ready, imp_iff_not_or]

/-- A byte that is no header is dropped where a frame would begin (R132). -/
theorem State.Receiving.dropped {b : Byte} (h0 : s.idx = 0) (hb : b ≠ s.params.hdr) :
    Receives [b] s { s with acc := zeroBuf } 0 := by
  have hidx : s.idx.toNat = 0 := congrArg BitVec.toNat h0
  have hexec : exec (.rxByte b) s = .next { s with idx := 0, acc := zeroBuf } := by
    rw [exec_rxByte_ready h.legal h.uart h.ready, synchronize_dropped hidx hb,
      settle_of_settled (h.withAcc 0 zeroBuf).settled]
  have hnot : ¬ completesFrame b s = true := fun hc => hb ((h.completesFrame_iff.1 hc).1 hidx)
  rw [← h0] at hexec
  simpa only [if_neg hnot] using Receives.single hexec

/-- The header, or any byte of a frame in progress, is stored below the last place (R131, R135). -/
theorem State.Receiving.stored_byte {b : Byte} (hb : s.idx.toNat = 0 → b = s.params.hdr)
    (hlen : s.idx.toNat + 1 < s.params.len) :
    Receives [b] s { s with idx := s.idx + 1, acc := putByte s.acc s.idx.toNat b } 0 := by
  have hexec : exec (.rxByte b) s = .next { s with idx := s.idx + 1, acc := putByte s.acc s.idx.toNat b } := by
    rw [exec_rxByte_ready h.legal h.uart h.ready, synchronize_stored hb hlen.ne,
      settle_of_settled (h.withAcc _ _).settled]
  have hnot : ¬ completesFrame b s = true := fun hc => hlen.ne (h.completesFrame_iff.1 hc).2
  simpa only [if_neg hnot] using Receives.single hexec

/-- At the last place any byte completes the frame (R133). -/
theorem State.Receiving.last_byte {b : Byte} (hlen : s.idx.toNat + 1 = s.params.len) :
    Receives [b] s (settle (stagedBy [b] s)) 1 := by
  have h2 := h.two_le_len
  have hcompletes : completesFrame b s = true := h.completesFrame_iff.2 ⟨fun h0 => by omega, hlen⟩
  have hexec := exec_rxByte_last (b := b) h.legal h.uart h.ready hlen
  simpa only [if_pos hcompletes] using Receives.single hexec

/-- Bytes without a header, where a frame would begin, are all dropped (R132). -/
theorem State.Receiving.headerless {bs : List Byte} (h0 : s.idx = 0) (hbs : ∀ b ∈ bs, b ≠ s.params.hdr) :
    ∃ buf, Receives bs s { s with acc := buf } 0 := by
  induction bs generalizing s with
  | nil => exact ⟨s.acc, .nil s⟩
  | cons b bs ih =>
    obtain ⟨hb, hrest⟩ := List.forall_mem_cons.1 hbs
    obtain ⟨buf, hrun⟩ := ih (h.withAcc s.idx zeroBuf) h0 hrest
    exact ⟨buf, (h.dropped h0 hb).append hrun⟩

/-- Bytes that begin or continue a frame are stored one after the other while they do not complete it. -/
theorem State.Receiving.stored {bs : List Byte} (hhead : s.idx.toNat = 0 → ∀ b ∈ bs.head?, b = s.params.hdr)
    (hlen : s.idx.toNat + bs.length < s.params.len) :
    ∃ n : BitVec 6, n.toNat = s.idx.toNat + bs.length ∧
      Receives bs s { s with idx := n, acc := putBytes s.acc s.idx.toNat bs } 0 := by
  induction bs generalizing s with
  | nil => exact ⟨s.idx, rfl, .nil s⟩
  | cons b bs ih =>
    rw [List.length_cons] at hlen ⊢
    have hidx : (s.idx + 1).toNat = s.idx.toNat + 1 := idx_add_one_toNat h.legal (by omega)
    have hb := h.stored_byte (fun hz => hhead hz b rfl) (by omega)
    obtain ⟨n, hn, hrun⟩ := ih (h.withAcc (s.idx + 1) (putByte s.acc s.idx.toNat b))
      (fun hz => absurd (hidx.symm.trans hz) (Nat.succ_ne_zero _))
      (by show (s.idx + 1).toNat + bs.length < s.params.len; omega)
    simp only [hidx] at hn hrun
    exact ⟨n, by omega, hb.append hrun⟩

/-- Bytes that begin or continue a frame and reach its end complete it with the last of them, and not before. -/
theorem State.Receiving.completed {bs : List Byte} (hbs : bs ≠ [])
    (hhead : s.idx.toNat = 0 → ∀ b ∈ bs.head?, b = s.params.hdr) (hlen : s.idx.toNat + bs.length = s.params.len) :
    completions bs.dropLast s = 0 ∧ Receives bs s (settle (stagedBy bs s)) 1 := by
  obtain ⟨init, b, rfl⟩ := (List.eq_nil_or_concat' bs).resolve_left hbs
  rw [List.length_append, List.length_singleton] at hlen
  have hhead' : s.idx.toNat = 0 → ∀ c ∈ init.head?, c = s.params.hdr := fun hz c hc =>
    hhead hz c (by rw [List.head?_append, hc]; rfl)
  obtain ⟨n, hn, hrun⟩ := h.stored hhead' (by omega)
  have hlast := (h.withAcc n (putBytes s.acc s.idx.toNat init)).last_byte (b := b)
    (by show n.toNat + 1 = s.params.len; omega)
  have hstaged :
      stagedBy [b] { s with idx := n, acc := putBytes s.acc s.idx.toNat init } = stagedBy (init ++ [b]) s := by
    rw [stagedBy, stagedBy, putBytes_concat, ← hn]
    rfl
  rw [hstaged] at hlast
  rw [List.dropLast_concat]
  exact ⟨hrun.2, hrun.append hlast⟩

/-- A frame received whole completes with its last byte, and not before. -/
theorem State.Receiving.whole_frame {frame : List Byte} (h0 : s.idx = 0) (hlen : frame.length = s.params.len)
    (hhead : frame.head? = some s.params.hdr) :
    completions frame.dropLast s = 0 ∧ Receives frame s (settle (stagedBy frame s)) 1 := by
  have hidx : s.idx.toNat = 0 := congrArg BitVec.toNat h0
  have h2 := h.two_le_len
  refine h.completed (List.ne_nil_of_length_pos (by omega)) (fun _ b hb => ?_) (by omega)
  rw [hhead] at hb
  exact (Option.some.inj hb).symm

end

end Sys2Proof.Machine
end

section
/-! PROOFS. The obligations of 41_frame_sync.md. -/

namespace Sys2Proof

open Machine

/-- Settles O38: with no frame in progress every byte is dropped; otherwise the first `L - IDX` bytes complete the frame
in progress, and the others are dropped. -/
theorem bytesWithoutHeaderEndTheFrameInProgress : Obligations.BytesWithoutHeaderEndTheFrameInProgress := by
  intro bs s hl hx hlife hw hidx hlen hbs
  have h : s.Receiving := ⟨hl, hx, hlife, settled_of_not_waiting hw⟩
  by_cases h0 : s.idx.toNat = 0
  · have hz : s.idx = 0 := BitVec.eq_of_toNat_eq h0
    obtain ⟨buf, hrun, hcount⟩ := h.headerless hz hbs
    exact ⟨_, hrun, hz, by rw [hcount, if_pos h0], fun _ => rfl, fun hne => absurd h0 hne⟩
  · obtain ⟨front, rest, rfl, hfront⟩ :
        ∃ front rest, bs = front ++ rest ∧ s.idx.toNat + front.length = s.params.len :=
      ⟨bs.take (s.params.len - s.idx.toNat), bs.drop (s.params.len - s.idx.toNat), (List.take_append_drop _ bs).symm,
        by rw [List.length_take]; omega⟩
    obtain ⟨-, hdone⟩ :=
      h.completed (bs := front) (List.ne_nil_of_length_pos (by omega)) (fun hz => absurd hz h0) hfront
    rw [settle_stagedBy hw] at hdone
    obtain ⟨buf, hdrop⟩ :=
      (h.after_staging hw front).headerless rfl fun b hb => hbs b (List.mem_append_right front hb)
    obtain ⟨hrun, hcount⟩ := hdone.append hdrop
    refine ⟨_, hrun, rfl, by rw [hcount, if_neg h0], fun hz => absurd hz h0, fun _ i => ?_⟩
    refine (byteAt_stagedBy hl hfront i).trans ?_
    split_ifs with hacc hi
    · rfl
    · exact (List.getD_append _ _ _ _ (by omega)).symm
    · rfl

/-- Settles O39: the bytes without the header are dropped, and the frame completes with its last byte. -/
theorem frameAfterHeaderlessBytesIsStaged : Obligations.FrameAfterHeaderlessBytesIsStaged := by
  intro runIn frame s hl hx hlife hw h0 hrunIn hlen hhead
  have h : s.Receiving := ⟨hl, hx, hlife, settled_of_not_waiting hw⟩
  obtain ⟨buf, hdrop⟩ := h.headerless h0 hrunIn
  obtain ⟨hbefore, hdone⟩ := (h.withAcc s.idx buf).whole_frame h0 hlen hhead
  rw [settle_stagedBy (s := { s with acc := buf }) hw] at hdone
  obtain ⟨hrun, hcount⟩ := hdrop.append hdone
  refine ⟨_, hrun, hcount, ?_, byteAt_stagedBy_frame (s := { s with acc := buf }) hl h0 hlen, ?_⟩
  · rw [completions_append _ _ _ _ hdrop.1, hdrop.2, hbefore]
  · simp [stagedBy, frameReady, h0, zeroBuf]

/-- Settles O40: the first frame leaves the cursor at 0, where the second one begins. -/
theorem backToBackFramesBothComplete : Obligations.BackToBackFramesBothComplete := by
  intro frame s hl hx hlife hw h0 hlen hhead
  have h : s.Receiving := ⟨hl, hx, hlife, settled_of_not_waiting hw⟩
  obtain ⟨-, hfirst⟩ := h.whole_frame h0 hlen hhead
  obtain ⟨-, hsecond⟩ := (h.after_staging hw frame).whole_frame rfl hlen hhead
  rw [settle_stagedBy hw] at hfirst
  rw [settle_stagedBy (s := stagedBy frame s) hw] at hsecond
  obtain ⟨hboth, hcount⟩ := hfirst.append hsecond
  refine ⟨_, _, hfirst.1, hsecond.1, hboth, hcount, rfl, fun i hi => ⟨?_, ?_⟩⟩
  · exact (byteAt_stagedBy_frame hl h0 hlen i).trans (if_pos hi)
  · exact (byteAt_stagedBy_frame (s := stagedBy frame s) hl rfl hlen i).trans (if_pos hi)

/-- Settles O41: the wait goes on until the frame's last byte stages it, and settle then completes the FETCH with it. -/
theorem validFrameWhileWaitingBecomesTheMeasurement : Obligations.ValidFrameWhileWaitingBecomesTheMeasurement := by
  intro runIn frame s hl hx hlife hw hs h0 hrunIn hlen hhead hvalid
  have h : s.Receiving := ⟨hl, hx, hlife, hs⟩
  obtain ⟨-, h64, -⟩ := (legalParams_iff s.params).1 hl
  obtain ⟨buf, hdrop⟩ := h.headerless h0 hrunIn
  obtain ⟨-, hdone⟩ := (h.withAcc s.idx buf).whole_frame h0 hlen hhead
  have hstage := byteAt_stagedBy_frame (s := { s with acc := buf }) hl h0 hlen
  have hhdr := byteAt_stagedBy_frame_zero (s := { s with acc := buf }) hl h0 hlen hhead
  have hv := (validate_stagedBy_frame (s := { s with acc := buf }) hl h0 hlen).trans hvalid
  rw [settle_valid (s := stagedBy frame { s with acc := buf }) hw hx hhdr hv] at hdone
  refine ⟨_, (hdrop.append hdone).1, fun i => ?_, ?_⟩
  · refine (byteAt_copyFirst _ _ _ i h64).trans ?_
    split_ifs with hi
    · exact (hstage i).trans (if_pos hi)
    · rfl
  · simp [stagedBy, frameReady, h0, zeroBuf]

/-- Settles O37: the frame is what ACC held and the last byte. -/
theorem completedFrameIsStagedWhole : Obligations.CompletedFrameIsStagedWhole := by
  intro b s hs hx hlife hw hlen
  obtain ⟨h2, -⟩ := (legalParams_iff s.params).1 hs.legal
  have hstage := byteAt_stagedBy (bs := [b]) hs.legal hlen
  have hexec := exec_rxByte_last (b := b) hs.legal hx hlife hlen
  rw [settle_stagedBy hw] at hexec
  refine ⟨_, hexec, fun i hi => ?_, ?_, ?_, fun i hi => ?_, rfl⟩
  · rw [hstage, if_pos (by omega)]
  · rw [hstage, if_neg (by omega), if_pos (by omega), ← hlen, Nat.add_sub_cancel, Nat.sub_self, List.getD_cons_zero]
  · rw [hstage, if_pos (by omega), hs.acc_head (by omega)]
  · rw [hstage, if_neg (by omega), if_neg (by omega)]

/-- Settles O35: one equation of the transition per place of the cursor. -/
theorem rxByteFollowsTheSynchronizer : Obligations.RxByteFollowsTheSynchronizer := by
  intro b s hl hx hlife _
  refine ⟨fun h0 hb => ?_, fun hb hlen => ⟨?_, idx_add_one_toNat hl hlen⟩, fun hlen => ?_⟩
  · rw [exec_rxByte_ready hl hx hlife, synchronize_dropped h0 hb]
    rfl
  · rw [exec_rxByte_ready hl hx hlife, synchronize_stored (fun h0 => hb.resolve_left (not_not.2 h0)) hlen.ne]
    rfl
  · exact exec_rxByte_last hl hx hlife hlen

/-- Settles O36: the rule is no change (R130), and a settled state has nothing to settle. -/
theorem rxByteIsIgnoredUnlessReadyUart : Obligations.RxByteIsIgnoredUnlessReadyUart := by
  intro b s hl hs hno
  have hrun : exec (.rxByte b) s = .next (settle (rxByteRule b s)) := runEvent_legal hl
  rw [hrun, rxByteRule_ignored hno, settle_of_settled hs]

end Sys2Proof
end

section
/-! PROOFS. The CAN frame reader (42_can_reader.md): the filter in numbers (R151), what a CAN_RX does on either side of it
(R150, R152, R153), and the wait that a pending frame ends (R182, R185). -/

namespace Sys2Proof.Machine

/-! ### The filter (R103, R151) -/

/-- No field of ACC_KEY is cut by its mask, and its priority field is 0. -/
theorem accKey_toNat (s : State) :
    (accKey s).toNat = s.dataId.toNat * 2 ^ 16 + s.hostId.toNat * 2 ^ 8 + s.devId.toNat := by
  rw [accKey, BitVec.toNat_ofNat, Nat.mod_eq_of_lt (canid_lt _ _ _ _), canid_eq_add]
  simp only [BitVec.toNat_mod_cancel, Nat.zero_mod, Nat.zero_mul, Nat.zero_add]

/-- ACC_KEY fills the 24 bits that the filter compares. -/
theorem accKey_lt (s : State) : (accKey s).toNat < 2 ^ 24 := by
  rw [accKey_toNat]
  omega

theorem low24_eq_iff (a b : CanId) :
    a.extractLsb' 0 24 = b.extractLsb' 0 24 ↔ a.toNat % 2 ^ 24 = b.toNat % 2 ^ 24 := by
  rw [← BitVec.toNat_inj, BitVec.extractLsb'_toNat, BitVec.extractLsb'_toNat, Nat.shiftRight_zero, Nat.shiftRight_zero]

/-- The filter in numbers: an extended data frame of eight bytes whose identifier is ACC_KEY below its priority. -/
theorem accepts_iff {ide rtr : Bool} {id : CanId} {dlc : BitVec 4} {s : State} :
    accepts ide rtr id dlc s = true ↔ ide = true ∧ rtr = false ∧ dlc.toNat = 8 ∧
      id.toNat % 2 ^ 24 = s.dataId.toNat * 2 ^ 16 + s.hostId.toNat * 2 ^ 8 + s.devId.toNat := by
  have hdlc : dlc = 8 ↔ dlc.toNat = 8 := BitVec.toNat_inj.symm
  rw [← accKey_toNat, ← hdlc, accepts]
  simp only [Bool.and_eq_true, beq_iff_eq, Bool.not_eq_true', low24_eq_iff, Nat.mod_eq_of_lt (accKey_lt s), and_assoc]

/-! ### One frame (R150 to R153) -/

section
variable {ide rtr : Bool} {id : CanId} {dlc : BitVec 4} {data : CanData} {s : State}

theorem exec_canRx_accepted (hl : legalParams s.params = true) (hx : s.params.xport = .can) (hlife : s.life = .ready)
    (ha : accepts ide rtr id dlc s = true) :
    exec (.canRx ide rtr id dlc data) s = .next (settle (stageCanFrame id data s)) := by
  have hrule : canRxRule ide rtr id dlc data s = stageCanFrame id data s := if_pos ⟨hx, hlife, ha⟩
  exact (runEvent_legal hl).trans (by rw [hrule])

theorem exec_canRx_dropped (hl : legalParams s.params = true) (hs : s.Settled)
    (hno : ¬ (s.params.xport = .can ∧ s.life = .ready ∧ accepts ide rtr id dlc s = true)) :
    exec (.canRx ide rtr id dlc data) s = .next s := by
  have hrule : canRxRule ide rtr id dlc data s = s := if_neg hno
  exact (runEvent_legal hl).trans (by rw [hrule, settle_of_settled hs])

end

@[simp] theorem stageCanFrame_state (id : CanId) (data : CanData) (s : State) :
    (stageCanFrame id data s).state = s.state := by rw [stageCanFrame]

@[simp] theorem stageCanFrame_params (id : CanId) (data : CanData) (s : State) :
    (stageCanFrame id data s).params = s.params := by rw [stageCanFrame]

@[simp] theorem stageCanFrame_canPend (id : CanId) (data : CanData) (s : State) :
    (stageCanFrame id data s).canPend = true := by rw [stageCanFrame]

/-- A staged frame is pending, so it ends a wait with OK, whatever time is left (R182, R185). -/
theorem settle_stageCanFrame {s : State} (hw : s.state = .waiting) (hx : s.params.xport = .can) (id : CanId)
    (data : CanData) :
    settle (stageCanFrame id data s) = { s with
      meas := copyFirst 8 (copyPayload data s.stage) s.meas, measCanId := id, stage := zeroBuf, stageCanId := 0
      canPend := false, cres := .ok, state := .idle } := by
  have hw' : (stageCanFrame id data s).state = .waiting := by rw [stageCanFrame_state, hw]
  have hx' : (stageCanFrame id data s).params.xport = .can := by rw [stageCanFrame_params, hx]
  rw [settle_arrived hw' (by rw [arrived_can hx', stageCanFrame_canPend]), complete_can hx', completeCan,
    postCommandResult, stageCanFrame]

/-- Of a payload that goes through STAGE into MEAS, MEAS holds the payload. -/
theorem byteAt_copyFirst_copyPayload (data : CanData) (stage meas : Buf) (i : Nat) :
    byteAt (copyFirst 8 (copyPayload data stage) meas) i = if i < 8 then data.toList.getD i 0 else byteAt meas i := by
  rw [byteAt_copyFirst _ _ _ _ (by decide), byteAt_copyPayload]
  split_ifs <;> rfl

end Sys2Proof.Machine
end

section
/-! PROOFS. The obligations about the CAN frame reader (42_can_reader.md). -/

namespace Sys2Proof

open Machine

/-- Settles O42: the filter in numbers is the obligation's condition, and the staged buffer is STAGE with the payload. -/
theorem canFrameIsStagedIffAccepted : Obligations.CanFrameIsStagedIffAccepted := by
  intro ide rtr id dlc data s hl
  rw [← accepts_iff]
  constructor
  · rintro ⟨hx, hlife, ha⟩
    exact ⟨copyPayload data s.stage, byteAt_copyPayload data s.stage, exec_canRx_accepted hl hx hlife ha⟩
  · exact fun hno hs => exec_canRx_dropped hl hs hno

/-- Settles O43: the staged frame is pending when settle tests for arrival, so settle completes the FETCH with it. -/
theorem canFrameWhileWaitingBecomesTheMeasurement : Obligations.CanFrameWhileWaitingBecomesTheMeasurement := by
  intro id data s hl hx hlife hw hid
  have ha : accepts true false id 8 s = true := accepts_iff.2 ⟨rfl, rfl, rfl, hid⟩
  have hexec := exec_canRx_accepted (data := data) hl hx hlife ha
  rw [settle_stageCanFrame hw hx] at hexec
  exact ⟨_, hexec, byteAt_copyFirst_copyPayload data s.stage s.meas, rfl⟩

end Sys2Proof
end

section
/-! PROOFS. The orchestrator (43_orchestrator.md): each command, reply and TICK in equations, one per branch of its rule
(R170 to R180, R191), the ways a wait ends (R181 to R186), the value of a field (R190), and a wait under TICKs alone. -/

namespace Sys2Proof.Machine

/-! ### Events and their rules (R20, R212) -/

section
variable {i c : Instr} {s u : State}

theorem exec_of_rule (hl : legalParams s.params = true) (hi : i.wellFormed = true) (hr : ruleOf i s = u) :
    exec i s = .next (settle u) :=
  hr ▸ exec_of_legal hl hi

theorem exec_of_settled_rule (hl : legalParams s.params = true) (hi : i.wellFormed = true) (hr : ruleOf i s = u)
    (hu : u.Settled) : exec i s = .next u := by
  rw [exec_of_rule hl hi hr, settle_of_settled hu]

/-- A word written to CMD does what its command does, on every instance (R212). -/
theorem exec_cmd_word {w : Word} (hw : decodeCommand w = c) (hc : c.aligned = true) (s : State) :
    exec (.regWrite 0x0C w) s = exec c s := by
  have haligned : (Instr.regWrite 0x0C w).aligned = true := rfl
  rw [exec_eq, exec_eq, ruleOf_of_asks (.inr ⟨w, rfl, hw⟩), haligned, hc]

end

/-! ### INIT, FETCH and GET (R170, R171, R191) -/

section
variable {s : State}

theorem initRule_accepted (hlife : s.life = .uninit) (hidle : s.state = .idle) :
    initRule s = emit .initReq { s with cmderr := false, cres := .none, state := .initing } :=
  if_neg (not_or.2 ⟨not_not.2 hlife, not_not.2 hidle⟩)

theorem initRule_dropped (h : s.life ≠ .uninit ∨ s.state ≠ .idle) : initRule s = setCmderr true s := if_pos h

theorem fetchRule_busy (h : s.state ≠ .idle) : fetchRule s = setCmderr true s := if_pos h

theorem fetchRule_unavailable (hidle : s.state = .idle) (hlife : s.life ≠ .ready) :
    fetchRule s = postCommandResult .transportUnavailable (setCmderr false s) := by
  rw [fetchRule, if_neg (not_not.2 hidle), if_pos hlife]

/-- `s` as an active-mode FETCH makes it, before settle (R172). -/
def State.inFetch (s : State) : State := { s with cmderr := false, cres := .none, tcnt := 0, state := .waiting }

theorem fetchRule_active (hidle : s.state = .idle) (hlife : s.life = .ready) (hm : s.mode = .active) :
    fetchRule s = s.inFetch := by
  rw [fetchRule, if_neg (not_not.2 hidle), if_neg (not_not.2 hlife)]
  exact startFetch_active (s := { s with cmderr := false, cres := .none }) hm

/-- An active-mode FETCH waits, and its own step may end the wait (R172). -/
theorem exec_fetch_active (hl : legalParams s.params = true) (hidle : s.state = .idle) (hlife : s.life = .ready)
    (hm : s.mode = .active) : exec .fetch s = .next (settle s.inFetch) :=
  exec_of_rule hl rfl (fetchRule_active hidle hlife hm)

/-- The descriptor of a channel, as an entry of the list of descriptors (R107). -/
theorem chanDesc_eq (chan : BitVec 4) (s : State) :
    chanDesc chan s = s.params.chdesc.toList.getD chan.toNat .unsupported := by
  have hlt : chan.toNat < s.params.chdesc.toList.length := by rw [Vector.length_toList]; exact chan.isLt
  rw [chanDesc, List.getD_eq_getElem _ _ hlt, Vector.getElem_toList]

theorem getRule_unavailable {chan : BitVec 4} (h : s.life ≠ .ready) :
    getRule chan s = postGetResult .transportUnavailable (setCmderr false s) := if_pos h

theorem getRule_unsupported {chan : BitVec 4} (hlife : s.life = .ready) (hv : (chanDesc chan s).valid = false) :
    getRule chan s = postGetResult .unsupportedChannel (setCmderr false s) := by
  rw [getRule, if_neg (not_not.2 hlife), if_neg (Bool.eq_false_iff.1 hv)]

theorem getRule_value {chan : BitVec 4} (hlife : s.life = .ready) (hv : (chanDesc chan s).valid = true) :
    getRule chan s = postGetResult .ok { s with cmderr := false, getval := field s.meas (chanDesc chan s) } := by
  rw [getRule, if_neg (not_not.2 hlife), if_pos hv]

/-- Whatever GET posts, it touches nothing that settle looks at (R192). -/
theorem exec_get {chan : BitVec 4} {r : ResultCode} {v : Word} (hl : legalParams s.params = true) (hs : s.Settled)
    (hr : getRule chan s = { s with cmderr := false, gres := r, getval := v }) :
    exec (.get chan) s = .next { s with cmderr := false, gres := r, getval := v } :=
  exec_of_settled_rule hl rfl hr hs

end

/-! ### Replies and TICK (R175, R176, R180) -/

section
variable {s : State}

theorem txDoneRule_sent (h : s.state = .sending) : txDoneRule true s = enterWaiting s := by
  rw [txDoneRule, if_neg (not_not.2 h), if_pos rfl]

theorem txDoneRule_failed (h : s.state = .sending) : txDoneRule false s = postCommandResult .sendFailure s := by
  rw [txDoneRule, if_neg (not_not.2 h), if_neg Bool.false_ne_true]

theorem initDoneRule_up (h : s.state = .initing) :
    initDoneRule true s = postCommandResult .ok { s with life := .ready } := by
  rw [initDoneRule, if_neg (not_not.2 h), if_pos rfl]

theorem initDoneRule_down (h : s.state = .initing) :
    initDoneRule false s = postCommandResult .transportUnavailable { s with life := .dead } := by
  rw [initDoneRule, if_neg (not_not.2 h), if_neg Bool.false_ne_true]

theorem exec_txDone_ignored (hl : legalParams s.params = true) (hs : s.Settled) (h : s.state ≠ .sending) (ok : Bool) :
    exec (.txDone ok) s = .next s :=
  exec_of_settled_rule hl rfl (if_pos h) hs

theorem exec_initDone_ignored (hl : legalParams s.params = true) (hs : s.Settled) (h : s.state ≠ .initing)
    (ok : Bool) : exec (.initDone ok) s = .next s :=
  exec_of_settled_rule hl rfl (if_pos h) hs

theorem tickRule_counts (hw : s.state = .waiting) (ht : s.tcnt < s.timeout) :
    tickRule s = { s with tcnt := s.tcnt + 1 } := if_pos ⟨hw, ht⟩

theorem tickRule_still (h : s.state = .waiting → ¬ s.tcnt < s.timeout) : tickRule s = s :=
  if_neg fun ⟨hw, ht⟩ => h hw ht

/-- A counter below another word does not wrap. -/
theorem tcnt_add_one_toNat (ht : s.tcnt < s.timeout) : (s.tcnt + 1).toNat = s.tcnt.toNat + 1 := by
  bv_omega

end

/-! ### How a wait ends (R181 to R186) -/

section
variable {s : State}

theorem arrived_iff : arrived s = true ↔
    (s.params.xport = .uart ∧ byteAt s.stage 0 = s.params.hdr) ∨ (s.params.xport = .can ∧ s.canPend = true) := by
  cases hx : s.params.xport with
  | uart => simp [arrived_uart hx]
  | can => simp [arrived_can hx]

/-- The validator in numbers, on a buffer (R120, R121). -/
theorem validate_toList_iff (b : Buf) (n : Nat) :
    validate b.toList n = true ↔
      ((b.toList.take (n - 1)).map BitVec.toNat).sum % 256 = (byteAt b (n - 1)).toNat := by
  rw [validate_iff, getD_toList, ← BitVec.toNat_inj, checksum_toNat]
  rfl

/-- A staged frame that does not validate ends a wait with MALFORMED_FRAME (R184). -/
theorem settle_malformed (hw : s.state = .waiting) (hx : s.params.xport = .uart)
    (hhead : byteAt s.stage 0 = s.params.hdr) (hv : validate s.stage.toList s.params.len = false) :
    settle s = { s with
      stage := if s.params.clearOnMalformed then zeroBuf else s.stage, cres := .malformedFrame, state := .idle } := by
  rw [settle_arrived hw (arrived_iff.2 (.inl ⟨hx, hhead⟩))]
  obtain ⟨-, hv', -⟩ | ⟨-, -, hc⟩ | ⟨hx', -⟩ := complete_cases s
  · cases hv.symm.trans hv'
  · exact hc
  · cases hx.symm.trans hx'

/-- A pending CAN frame ends a wait with OK (R185). -/
theorem settle_pending (hw : s.state = .waiting) (hx : s.params.xport = .can) (hp : s.canPend = true) :
    settle s = { s with
      meas := copyFirst 8 s.stage s.meas, measCanId := s.stageCanId, stage := zeroBuf
      stageCanId := 0, canPend := false, cres := .ok, state := .idle } := by
  rw [settle_arrived hw (arrived_iff.2 (.inr ⟨hx, hp⟩)), complete_can hx]
  rfl

/-- A completion answers the FETCH (R184, R185). -/
theorem complete_cres (s : State) : (complete s).cres = .ok ∨ (complete s).cres = .malformedFrame := by
  obtain ⟨-, -, hc⟩ | ⟨-, -, hc⟩ | ⟨-, hc⟩ := complete_cases s <;> simp [hc]

/-- With a frame arrived, the step that enters WAITING ends the wait (R186). -/
theorem settle_arrived_answers (hw : s.state = .waiting) (ha : arrived s = true) :
    (settle s).state = .idle ∧ ((settle s).cres = .ok ∨ (settle s).cres = .malformedFrame) := by
  rw [settle_arrived hw ha]
  exact ⟨complete_state s, complete_cres s⟩

/-- An OK consumes the staged frame (R184, R185). -/
theorem arrived_settle_of_ok (hl : legalParams s.params = true) (hw : s.state = .waiting) (ha : arrived s = true)
    (hok : (settle s).cres = .ok) : arrived (settle s) = false := by
  rw [settle_arrived hw ha] at hok ⊢
  obtain ⟨hx, -, hc⟩ | ⟨-, -, hc⟩ | ⟨hx, hc⟩ := complete_cases s
  · obtain ⟨-, -, hhdr, -⟩ := (legalParams_iff s.params).1 hl
    simpa [hc, arrived, hx] using hhdr.symm
  · rw [hc] at hok; cases hok
  · simp [hc, arrived, hx]

/-- The default instance keeps a malformed frame, and the FETCH leaves the rest as well (R189). -/
theorem exec_fetch_malformed (hl : legalParams s.params = true) (hx : s.params.xport = .uart)
    (hkeep : s.params.clearOnMalformed = false) (hidle : s.state = .idle) (hlife : s.life = .ready)
    (hm : s.mode = .active) (hhead : byteAt s.stage 0 = s.params.hdr)
    (hv : validate s.stage.toList s.params.len = false) :
    exec .fetch s = .next { s with cmderr := false, cres := .malformedFrame, tcnt := 0 } := by
  rw [exec_fetch_active hl hidle hlife hm, settle_malformed (s := s.inFetch) rfl hx hhead hv]
  simp [State.inFetch, hkeep, hidle]

end

/-! ### A wait under TICKs alone (R180, R182) -/

section
variable {s : State}

theorem execAll_cons {i : Instr} {is : List Instr} {t : State} (h : exec i s = .next t) :
    execAll (i :: is) s = execAll is t := by
  rw [execAll, h]

theorem exec_tick_waiting (hl : legalParams s.params = true) (hw : s.state = .waiting) (ht : s.tcnt < s.timeout) :
    exec .tick s = .next (settle { s with tcnt := s.tcnt + 1 }) :=
  exec_of_rule hl rfl (tickRule_counts hw ht)

/-- TICKs that do not reach TIMEOUT only count. -/
theorem execAll_ticks_short (hl : legalParams s.params = true) (hw : s.state = .waiting) (ha : arrived s = false)
    {k : Nat} (hk : s.tcnt.toNat + k < s.timeout.toNat) :
    execAll (List.replicate k .tick) s = .next { s with tcnt := s.tcnt + BitVec.ofNat 32 k } := by
  induction k generalizing s with
  | zero => simp [execAll]
  | succ k ih =>
    have hnat := tcnt_add_one_toNat (s := s) (by bv_omega)
    have hlt : s.tcnt + 1 < s.timeout := BitVec.lt_def.2 (by omega)
    have hexec := exec_tick_waiting hl hw (by bv_omega)
    rw [settle_of_settled (s := { s with tcnt := s.tcnt + 1 }) fun _ => ⟨ha, hlt⟩] at hexec
    have hsum : s.tcnt + BitVec.ofNat 32 (k + 1) = s.tcnt + 1 + BitVec.ofNat 32 k := by
      rw [BitVec.add_assoc, BitVec.add_comm 1, BitVec.ofNat_add]
      rfl
    rw [List.replicate_succ, execAll_cons hexec, hsum]
    exact ih (s := { s with tcnt := s.tcnt + 1 }) hl hw ha (by show (s.tcnt + 1).toNat + k < s.timeout.toNat; omega)

/-- With nothing arrived, as many TICKs as are left, none of them perhaps, end the wait with NO_DATA: by induction on
their number, since the step before each of them settles. -/
theorem execAll_ticks_end (hl : legalParams s.params = true) (hw : s.state = .waiting) (ha : arrived s = false)
    {k : Nat} (hk : s.tcnt.toNat + k = s.timeout.toNat) :
    execAll (List.replicate k .tick) (settle s) =
      .next { s with tcnt := s.timeout, cres := .noData, state := .idle } := by
  induction k generalizing s with
  | zero =>
    have ht : s.tcnt = s.timeout := BitVec.eq_of_toNat_eq hk
    rw [settle_noData hw ha (by rw [ht]; exact BitVec.le_refl _), ← ht]
    rfl
  | succ k ih =>
    have ht : s.tcnt < s.timeout := BitVec.lt_def.2 (by omega)
    have hnat := tcnt_add_one_toNat ht
    rw [settle_of_settled fun _ => ⟨ha, ht⟩, List.replicate_succ, execAll_cons (exec_tick_waiting hl hw ht)]
    exact ih (s := { s with tcnt := s.tcnt + 1 }) hl hw ha (by show (s.tcnt + 1).toNat + k = s.timeout.toNat; omega)

/-- A FETCH with nothing arrived ends in NO_DATA after TIMEOUT TICKs, with none of them if TIMEOUT is 0 (R172, R182). -/
theorem execAll_fetch_ticks (hl : legalParams s.params = true) (hidle : s.state = .idle) (hlife : s.life = .ready)
    (hm : s.mode = .active) (ha : arrived s = false) :
    execAll (.fetch :: List.replicate s.timeout.toNat .tick) s =
      .next { s with cmderr := false, tcnt := s.timeout, cres := .noData } := by
  have hend := execAll_ticks_end (s := s.inFetch) hl rfl ha (k := s.timeout.toNat) (Nat.zero_add _)
  rw [execAll_cons (exec_fetch_active hl hidle hlife hm), hend, ← hidle]
  rfl

end

/-! ### The value of a field (R190) -/

/-- A byte sequence read as digits to base 256. -/
theorem leValue_eq_ofDigits (bs : List Byte) : leValue bs = Nat.ofDigits 256 (bs.map BitVec.toNat) := by
  induction bs with
  | nil => rfl
  | cons b bs ih => rw [leValue, ih, List.map_cons, Nat.ofDigits_cons]

theorem leValue_lt (bs : List Byte) : leValue bs < 256 ^ bs.length := by
  rw [leValue_eq_ofDigits, ← List.length_map BitVec.toNat]
  exact Nat.ofDigits_lt_base_pow_length (by decide) fun x hx => by
    obtain ⟨b, -, rfl⟩ := List.mem_map.1 hx
    exact b.isLt

theorem leValue_append (as bs : List Byte) : leValue (as ++ bs) = leValue as + 256 ^ as.length * leValue bs := by
  simp only [leValue_eq_ofDigits, List.map_append, Nat.ofDigits_append, List.length_map]

/-- Little-endian: byte `k` counts 256 to the power of `k`. -/
theorem leValue_range (g : Nat → Byte) (n : Nat) :
    leValue ((List.range n).map g) = ((List.range n).map fun k => (g k).toNat * 256 ^ k).sum := by
  induction n with
  | zero => rfl
  | succ n ih =>
    simp only [List.range_succ, List.map_append, leValue_append, ih, List.length_map, List.length_range, List.sum_append,
      List.map_cons, List.map_nil, leValue, List.sum_cons, List.sum_nil]
    ring

/-- Big-endian: byte `k` of `n` counts 256 to the power of `n - 1 - k`. -/
theorem leValue_reverse_range (g : Nat → Byte) (n : Nat) :
    leValue ((List.range n).map g).reverse = ((List.range n).map fun k => (g k).toNat * 256 ^ (n - 1 - k)).sum := by
  induction n with
  | zero => rfl
  | succ n ih =>
    have hshift : ∀ k ∈ List.range n,
        (g k).toNat * 256 ^ (n + 1 - 1 - k) = 256 * ((g k).toNat * 256 ^ (n - 1 - k)) := fun k hk => by
      have hexp : n + 1 - 1 - k = n - 1 - k + 1 := by have := List.mem_range.1 hk; omega
      rw [hexp, pow_succ]
      ring
    rw [List.range_succ, List.map_append, List.reverse_append, List.map_append, List.map_congr_left hshift,
      List.sum_append, List.sum_map_mul_left, ← ih]
    simp [leValue, Nat.add_comm]

theorem fieldBytes_length (b : Buf) (d : ChanDesc) : (fieldBytes b d).length = d.n.val := by
  rw [fieldBytes, List.length_map, List.length_range]

/-- The number a field's bytes stand for, in the descriptor's byte order. -/
theorem fieldRaw_eq_sum (b : Buf) (d : ChanDesc) :
    fieldRaw b d =
      if d.be then
        ((List.range d.n.val).map fun k => (byteAt b (d.off.val + k)).toNat * 256 ^ (d.n.val - 1 - k)).sum
      else ((List.range d.n.val).map fun k => (byteAt b (d.off.val + k)).toNat * 256 ^ k).sum := by
  unfold fieldRaw
  split
  · exact leValue_reverse_range _ _
  · exact leValue_range _ _

theorem fieldRaw_lt (b : Buf) (d : ChanDesc) : fieldRaw b d < 2 ^ (8 * d.n.val) := by
  have hbase : 2 ^ (8 * d.n.val) = 256 ^ d.n.val := pow_mul 2 8 d.n.val
  have hlen := fieldBytes_length b d
  rw [hbase, ← hlen, fieldRaw]
  split
  · rw [← List.length_reverse]; exact leValue_lt _
  · exact leValue_lt _

/-- A field that is not extended by its sign is its number. -/
theorem field_toNat {b : Buf} {d : ChanDesc} (hn : d.n.val ≤ 4) (h : d.sgn = false ∨ d.n.val = 4) :
    (field b d).toNat = fieldRaw b d := by
  have hno : ¬ (d.sgn && decide (d.n.val < 4)) = true := by
    obtain hs | h4 := h
    · simp [hs]
    · simp [h4]
  have hlt : fieldRaw b d < 2 ^ 32 := (fieldRaw_lt b d).trans_le (Nat.pow_le_pow_right (by decide) (by omega))
  rw [field, if_neg hno, BitVec.toNat_ofNat, Nat.mod_eq_of_lt hlt]

/-- A field extended by its sign is its number in two's complement. -/
theorem field_toInt {b : Buf} {d : ChanDesc} (hs : d.sgn = true) (h4 : d.n.val < 4) :
    (field b d).toInt =
      if 2 * fieldRaw b d < 256 ^ d.n.val then (fieldRaw b d : Int) else (fieldRaw b d : Int) - 256 ^ d.n.val := by
  have hsigned : (d.sgn && decide (d.n.val < 4)) = true := by simp [hs, h4]
  have hbase : 2 ^ (8 * d.n.val) = 256 ^ d.n.val := pow_mul 2 8 d.n.val
  rw [field, if_pos hsigned, BitVec.toInt_signExtend_of_le (by omega), BitVec.toInt_eq_toNat_cond, BitVec.toNat_ofNat,
    Nat.mod_eq_of_lt (fieldRaw_lt b d), hbase, Nat.cast_pow]
  rfl

/-- Zero bytes make a field of zero, whatever its sign flag (R193). -/
theorem field_zeroBuf (d : ChanDesc) : field zeroBuf d = 0 := by
  have hraw : fieldRaw zeroBuf d = 0 := by
    rw [fieldRaw_eq_sum]
    simp
  rw [field, hraw]
  split
  · rw [BitVec.signExtend_eq_setWidth_of_msb_false BitVec.msb_zero]
    exact BitVec.setWidth_zero _ _
  · rfl

/-! ### Which rules can end what is in progress (R188) -/

section
variable {i : Instr} {s u : State}

/-- STATE is left by RESET, by a command from IDLE and by the reply to what was sent. -/
theorem RuleEffect.state_eq (h : RuleEffect i s u) :
    u.state = s.state ∨ i = .reset ∨ s.state = .idle ∨ (s.state = .sending ∧ ∃ ok, i = .txDone ok) ∨
      (s.state = .initing ∧ ∃ ok, i = .initDone ok) := by
  cases h with
  | reset hi => exact .inr (.inl hi)
  | init _ _ hidle => exact .inr (.inr (.inl hidle))
  | fetchUnavailable _ hidle => exact .inr (.inr (.inl hidle))
  | fetchQuery _ _ hidle => exact .inr (.inr (.inl hidle))
  | fetchActive _ hidle => exact .inr (.inr (.inl hidle))
  | sent hi hs => exact .inr (.inr (.inr (.inl ⟨hs, true, hi⟩)))
  | sendFailed hi hs => exact .inr (.inr (.inr (.inl ⟨hs, false, hi⟩)))
  | initUp hi hs => exact .inr (.inr (.inr (.inr ⟨hs, true, hi⟩)))
  | initDown hi hs => exact .inr (.inr (.inr (.inr ⟨hs, false, hi⟩)))
  | _ => exact .inl rfl

/-- A settled wait stays one under every rule but those of RESET, TICK and the frames. -/
theorem RuleEffect.settled_of_waiting (h : RuleEffect i s u) (hw : s.state = .waiting) (hs : s.Settled) :
    (u.state = .waiting ∧ u.Settled) ∨ i = .reset ∨ i = .tick ∨ (∃ b, i = .rxByte b) ∨
      ∃ ide rtr id dlc data, i = .canRx ide rtr id dlc data := by
  have hbusy : ∀ {st : OrchState}, s.state = st → st = .waiting := fun h => h.symm.trans hw
  cases h with
  | reset hi => exact .inr (.inl hi)
  | tick hi => exact .inr (.inr (.inl hi))
  | rxNoHeader b hi => exact .inr (.inr (.inr (.inl ⟨b, hi⟩)))
  | rxLast b hi => exact .inr (.inr (.inr (.inl ⟨b, hi⟩)))
  | rxMore b hi => exact .inr (.inr (.inr (.inl ⟨b, hi⟩)))
  | canRx ide rtr id dlc data hi => exact .inr (.inr (.inr (.inr ⟨ide, rtr, id, dlc, data, hi⟩)))
  | quiet => exact .inl ⟨hw, hs⟩
  | getValue => exact .inl ⟨hw, hs⟩
  | getFails => exact .inl ⟨hw, hs⟩
  | configure _ _ _ _ _ _ _ _ _ _ _ hidle => cases hbusy hidle
  | init _ _ hidle => cases hbusy hidle
  | fetchUnavailable _ hidle => cases hbusy hidle
  | fetchQuery _ _ hidle => cases hbusy hidle
  | fetchActive _ hidle => cases hbusy hidle
  | sent _ hsend => cases hbusy hsend
  | sendFailed _ hsend => cases hbusy hsend
  | initUp _ hinit => cases hbusy hinit
  | initDown _ hinit => cases hbusy hinit

/-- Settle leaves every STATE but WAITING. -/
theorem settle_state_of_eq {st : OrchState} (h : u.state = st) (hst : st ≠ .waiting) : (settle u).state = st := by
  rw [settle_of_not_waiting (h ▸ hst), h]

end

end Sys2Proof.Machine
end

section
/-! PROOFS. The obligations of 43_orchestrator.md. -/

namespace Sys2Proof

open Machine

/-- Settles O20: the bytes are digits to base 256, too few of them to exceed the width they are read at. -/
theorem fieldAssemblesBytesInOrderAndExtends : Obligations.FieldAssemblesBytesInOrderAndExtends := by
  intro b d _ hn
  dsimp only
  rw [← fieldRaw_eq_sum]
  exact ⟨field_toNat hn, field_toInt⟩

/-- Settles O19: reset empties MEAS, and a field of an empty buffer is 0. -/
theorem getReadsZeroWhileMeasIsZero : Obligations.GetReadsZeroWhileMeasIsZero := by
  refine ⟨fun _ => rfl, fun chan s hl hs hlife hmeas hv => ?_⟩
  rw [← chanDesc_eq] at hv
  have hfield : field s.meas (chanDesc chan s) = 0 := by
    rw [hmeas]
    exact field_zeroBuf _
  exact exec_get hl hs ((getRule_value hlife hv).trans (by rw [hfield]; rfl))

/-- Settles O32: one equation per branch of settle, the validator's test in numbers. -/
theorem settleEndsTheWait : Obligations.SettleEndsTheWait := by
  intro s
  refine ⟨settle_of_not_waiting, fun hw hx hhead => ⟨fun hsum => ?_, fun hsum => ?_⟩, settle_pending,
    fun hw huart hcan => ?_⟩
  · exact settle_valid hw hx hhead ((validate_toList_iff _ _).2 hsum)
  · exact settle_malformed hw hx hhead (Bool.eq_false_iff.2 (mt (validate_toList_iff _ _).1 hsum))
  · have ha : arrived s = false := by
      refine Bool.eq_false_iff.2 fun ha => ?_
      obtain ⟨hx, hhead⟩ | ⟨hx, hp⟩ := arrived_iff.1 ha
      · exact huart hx hhead
      · exact Bool.eq_false_iff.1 (hcan hx) hp
    exact ⟨fun ht => settle_noData hw ha (BitVec.le_def.2 ht),
      fun ht => settle_of_settled fun _ => ⟨ha, BitVec.lt_def.2 ht⟩⟩

/-- Settles O33: both steps enter WAITING with the frame arrived, and settle then completes it. -/
theorem stagedFrameCompletesFetchAtOnce : Obligations.StagedFrameCompletesFetchAtOnce := by
  intro s hl hstaged
  have ha : arrived s = true := arrived_iff.2 hstaged
  refine ⟨fun hidle hlife hm => ?_, fun hsend => ?_⟩
  · exact ⟨_, exec_fetch_active hl hidle hlife hm, settle_arrived_answers rfl ha⟩
  · exact ⟨_, exec_of_rule hl rfl (txDoneRule_sent hsend), settle_arrived_answers rfl ha⟩

/-- Settles O34: the FETCH leaves a state that differs from the first in the FETCH's own results, so the next FETCH finds
the same frame and answers the same. -/
theorem malformedFrameStaysStaged : Obligations.MalformedFrameStaysStaged := by
  intro s hl hx hkeep hidle hlife hm hhead hv
  exact ⟨_, exec_fetch_malformed hl hx hkeep hidle hlife hm hhead hv, rfl, rfl, rfl, hidle,
    exec_fetch_malformed (s := { s with cmderr := false, cres := .malformedFrame, tcnt := 0 })
      hl hx hkeep hidle hlife hm hhead hv⟩

/-- Settles O50: settle is the last thing every step does (R20), and what it leaves it does not change again. -/
theorem everyStepLeavesASettledState : Obligations.EveryStepLeavesASettledState :=
  ⟨fun _ _ _ h => (exec_next h).2 ▸ settle_settled _, fun _ hs => settle_of_settled hs⟩

/-- Settles O51: the TICKs before TIMEOUT count, and the one that reaches it ends the wait. -/
theorem waitEndsAtTheTimeoutTick : Obligations.WaitEndsAtTheTimeoutTick := by
  intro s hl hw hs
  obtain ⟨ha, ht⟩ := hs hw
  have hlt := BitVec.lt_def.1 ht
  refine ⟨fun k hk => execAll_ticks_short hl hw ha (by omega), ?_⟩
  have hend := execAll_ticks_end hl hw ha (k := s.timeout.toNat - s.tcnt.toNat) (by omega)
  rwa [settle_of_settled hs] at hend

/-- Settles O53: an OK empties the stage, so the second FETCH waits with nothing arrived, for TIMEOUT ticks from 0. -/
theorem secondFetchWithoutNewFrameReturnsNoData : Obligations.SecondFetchWithoutNewFrameReturnsNoData := by
  intro s t hinv hlife hm hidle ha h hok
  rw [exec_fetch_active hinv.legal hidle hlife hm] at h
  obtain rfl := Host.Outcome.next.inj h
  obtain ⟨-, -, -, -, hlife', -, -, hm', -, -, -, -, -, hparams, -⟩ := settle_frame s.inFetch
  exact execAll_fetch_ticks ((congrArg legalParams hparams).trans hinv.legal)
    (settle_arrived_answers (s := s.inFetch) rfl ha).1 (hlife'.trans hlife) (hm'.trans hm)
    (arrived_settle_of_ok (s := s.inFetch) hinv.legal rfl ha hok)

/-- Settles O59: settle leaves INITING and SENDING, and a wait whose state is still settled. -/
theorem nothingElseEndsACommandInProgress : Obligations.NothingElseEndsACommandInProgress := by
  intro i s t h
  obtain ⟨-, u, e, rfl⟩ := exec_effect h
  refine ⟨fun hs hne => ?_, fun hs hne => ?_, fun hs hset hne => ?_⟩
  · obtain hu | hi | hs' | ⟨hs', -⟩ | ⟨-, hi⟩ := e.state_eq
    · exact absurd (settle_state_of_eq (hu.trans hs) (by decide)) hne
    · exact .inl hi
    · cases hs.symm.trans hs'
    · cases hs.symm.trans hs'
    · exact .inr hi
  · obtain hu | hi | hs' | ⟨-, hi⟩ | ⟨hs', -⟩ := e.state_eq
    · exact absurd (settle_state_of_eq (hu.trans hs) (by decide)) hne
    · exact .inl hi
    · cases hs.symm.trans hs'
    · exact .inr hi
    · cases hs.symm.trans hs'
  · refine (e.settled_of_waiting hs hset).resolve_left fun ⟨hw, hu⟩ => ?_
    rw [settle_of_settled hu] at hne
    exact hne hw

/-- Settles O15: one equation per branch of INIT's rule, and R212 for its words. -/
theorem initIsAcceptedOrDropped : Obligations.InitIsAcceptedOrDropped := by
  intro s hl
  refine ⟨fun hlife hidle => ?_, fun hdrop hs => ?_, fun w hw => exec_cmd_word (decodeCommand_init hw) rfl s⟩
  · exact exec_of_settled_rule hl rfl (initRule_accepted hlife hidle) (settled_of_not_waiting OrchState.noConfusion)
  · exact exec_of_settled_rule hl rfl (initRule_dropped hdrop) hs

/-- Settles O16: one equation per branch of FETCH's rule, and R212 for its words. -/
theorem fetchFollowsItsRule : Obligations.FetchFollowsItsRule := by
  intro s hl
  refine ⟨fun hbusy hs => ?_, fun hidle hlife => ?_, fun hidle hlife hm => ?_, exec_fetch_active hl,
    fun w hw => exec_cmd_word (decodeCommand_fetch hw) rfl s⟩
  · exact exec_of_settled_rule hl rfl (fetchRule_busy hbusy) hs
  · have hrule : fetchRule s = { s with cmderr := false, cres := .transportUnavailable, state := .idle } :=
      fetchRule_unavailable hidle hlife
    rw [← hidle] at hrule
    exact exec_of_settled_rule hl rfl hrule (settled_of_not_waiting (by simp [hidle]))
  · exact exec_of_settled_rule hl rfl (fetchRule_query hidle hlife hm) (settled_of_not_waiting OrchState.noConfusion)

/-- Settles O18: one equation per branch of GET's rule, and R212 for its words, whose CHAN is bits 7:4 (R92). -/
theorem getReadsOneChannelOfMeas : Obligations.GetReadsOneChannelOfMeas := by
  intro chan s hl hs
  rw [← chanDesc_eq]
  refine ⟨fun hlife => exec_get hl hs (getRule_unavailable hlife),
    fun hlife hv => exec_get hl hs (getRule_unsupported hlife hv),
    fun hlife hv => exec_get hl hs (getRule_value hlife hv), fun w hop hchan => ?_⟩
  have hcmd : cmdChan w = chan := by
    rw [cmdChan_eq]
    exact BitVec.eq_of_toNat_eq ((BitVec.toNat_ofNat _ _).trans hchan)
  exact exec_cmd_word (hcmd ▸ decodeCommand_get hop) rfl s

/-- Settles O28: INITING ends with the reply, and another STATE ignores it. -/
theorem initDoneEndsInit : Obligations.InitDoneEndsInit := by
  intro s hl
  refine ⟨fun hinit => ⟨?_, ?_⟩, fun hno hs => exec_initDone_ignored hl hs hno⟩
  · exact exec_of_settled_rule hl rfl (initDoneRule_up hinit) (settled_of_not_waiting OrchState.noConfusion)
  · exact exec_of_settled_rule hl rfl (initDoneRule_down hinit) (settled_of_not_waiting OrchState.noConfusion)

/-- Settles O29: SENDING ends with the reply, in a wait or in IDLE, and another STATE ignores it. -/
theorem txDoneStartsTheWaitOrFails : Obligations.TxDoneStartsTheWaitOrFails := by
  intro s hl
  refine ⟨fun hsend => ⟨exec_of_rule hl rfl (txDoneRule_sent hsend), ?_⟩,
    fun hno hs => exec_txDone_ignored hl hs hno⟩
  exact exec_of_settled_rule hl rfl (txDoneRule_failed hsend) (settled_of_not_waiting OrchState.noConfusion)

/-- Settles O30: both replies test STATE first. -/
theorem unexpectedReplyIsIgnored : Obligations.UnexpectedReplyIsIgnored :=
  fun ok _ hl hs => ⟨fun hno => exec_txDone_ignored hl hs hno ok, fun hno => exec_initDone_ignored hl hs hno ok⟩

/-- Settles O31: the rule counts in a wait with time left and is no change otherwise. -/
theorem tickCountsOnlyWhileWaiting : Obligations.TickCountsOnlyWhileWaiting := by
  intro s hl
  refine ⟨fun hw ht => ⟨exec_tick_waiting hl hw ht, tcnt_add_one_toNat ht⟩, fun _ ht => ?_, fun hw => ?_⟩
  · exact exec_of_rule hl rfl (tickRule_still fun _ => ht)
  · exact exec_of_settled_rule hl rfl (tickRule_still fun h => absurd h hw) (settled_of_not_waiting hw)

end Sys2Proof
end

section
/-! PROOFS. A write to CMD (44_host_interface.md R211 to R213): the command it decodes to, which commands are dropped, and
what CMDERR says of it afterwards. -/

namespace Sys2Proof

open Machine

/-- No command is a register access (R93). -/
theorem decodeCommand_aligned (w : Word) : (decodeCommand w).aligned = true := by
  unfold decodeCommand
  split
  case h_5 => split <;> rfl
  all_goals rfl

/-- The command in `w` is dropped in `s` (R212, R213): INIT or FETCH while busy, INIT after INIT, and the reserved codes. -/
def DropsCommand (w : Word) (s : State) : Prop :=
  (w.toNat % 16 = 1 ∨ w.toNat % 16 = 2) ∧ s.state ≠ .idle
    ∨ w.toNat % 16 = 1 ∧ s.life ≠ .uninit
    ∨ 4 ≤ w.toNat % 16

end Sys2Proof

namespace Sys2Proof.Machine

/-- Both reserved rows have the one rule (R213). -/
theorem ruleOf_reserved_word {w : Word} (h : 4 ≤ w.toNat % 16) : ruleOf (decodeCommand w) = reservedRule := by
  rw [decodeCommand_reserved h]
  split <;> rfl

/-- Dropping a command changes nothing else, whichever command it is (R212). -/
theorem ruleOf_dropped {w : Word} {s : State} (h : DropsCommand w s) :
    ruleOf (decodeCommand w) s = setCmderr true s := by
  obtain ⟨hinit | hfetch, hbusy⟩ | ⟨hinit, hlife⟩ | hreserved := h
  · rw [decodeCommand_init hinit]
    exact initRule_dropped (.inr hbusy)
  · rw [decodeCommand_fetch hfetch]
    exact fetchRule_busy hbusy
  · rw [decodeCommand_init hinit]
    exact initRule_dropped (.inl hlife)
  · rw [ruleOf_reserved_word hreserved]
    rfl

section
variable {s : State}

theorem fetchRule_idle_cmderr (hidle : s.state = .idle) : (fetchRule s).cmderr = false := by
  by_cases hlife : s.life = .ready
  · cases hm : s.mode with
    | active => rw [fetchRule_active hidle hlife hm]; rfl
    | query => rw [fetchRule_query hidle hlife hm]; rfl
  · rw [fetchRule_unavailable hidle hlife]; rfl

/-- GET is never dropped (R191). -/
theorem getRule_cmderr (chan : BitVec 4) (s : State) : (getRule chan s).cmderr = false := by
  by_cases hlife : s.life = .ready
  · cases hv : (chanDesc chan s).valid with
    | false => rw [getRule_unsupported hlife hv]; rfl
    | true => rw [getRule_value hlife hv]; rfl
  · rw [getRule_unavailable hlife]; rfl

/-- Every command that is not dropped leaves CMDERR 0 (R212). -/
theorem ruleOf_accepted_cmderr {w : Word} (h : ¬ DropsCommand w s) : (ruleOf (decodeCommand w) s).cmderr = false := by
  simp only [DropsCommand, not_or, not_and, not_not, not_le] at h
  obtain ⟨hidle, hlife, hop⟩ := h
  have hrows : w.toNat % 16 = 0 ∨ w.toNat % 16 = 1 ∨ w.toNat % 16 = 2 ∨ w.toNat % 16 = 3 := by omega
  obtain hnop | hinit | hfetch | hget := hrows
  · rw [decodeCommand_nop hnop]; rfl
  · rw [decodeCommand_init hinit, ruleOf, initRule_accepted (hlife hinit) (hidle (.inl hinit))]; rfl
  · rw [decodeCommand_fetch hfetch]
    exact fetchRule_idle_cmderr (hidle (.inr hfetch))
  · rw [decodeCommand_get hget]
    exact getRule_cmderr (cmdChan w) s

theorem settle_cmderr (s : State) : (settle s).cmderr = s.cmderr := by
  obtain ⟨-, -, -, -, -, -, hcmderr, -⟩ := settle_frame s
  exact hcmderr

/-- CMDERR is nothing settle looks at (R182). -/
theorem settle_setCmderr {dropped : Bool} (hs : s.Settled) : settle (setCmderr dropped s) = { s with cmderr := dropped } :=
  settle_of_settled (settled_congr hs rfl rfl rfl rfl rfl rfl)

/-- A write to CMD runs the rule of its command (R212). -/
theorem exec_cmd_write (hl : legalParams s.params = true) (w : Word) :
    exec (.regWrite 0x0C w) s = .next (settle (ruleOf (decodeCommand w) s)) := by
  rw [exec_cmd_word rfl (decodeCommand_aligned w), exec_eq, if_pos hl, if_pos (decodeCommand_aligned w)]

/-- A dropped command sets CMDERR and does nothing else (R212). -/
theorem exec_cmd_dropped {w : Word} (hl : legalParams s.params = true) (hs : s.Settled) (h : DropsCommand w s) :
    exec (.regWrite 0x0C w) s = .next { s with cmderr := true } := by
  rw [exec_cmd_write hl, ruleOf_dropped h, settle_setCmderr hs]

end

end Sys2Proof.Machine
end

section
/-! PROOFS. The obligations of the host interface (44_host_interface.md). -/

namespace Sys2Proof

open Machine

/-- Settles O26: no command is a register access, so a write to CMD is its command; a dropped one has one rule, and no rule
of an accepted one, nor settle, leaves CMDERR set. -/
theorem commandIsDecodedThenDroppedOrAccepted : Obligations.CommandIsDecodedThenDroppedOrAccepted := by
  refine ⟨fun w s => exec_cmd_word rfl (decodeCommand_aligned w) s, fun w s hl hs => ?_⟩
  refine ⟨_, exec_cmd_write hl w, fun hdrop => ?_, fun haccept => ?_⟩
  · rw [ruleOf_dropped hdrop, settle_setCmderr hs]
  · rw [settle_cmderr]
    exact ruleOf_accepted_cmderr haccept

/-- Settles O13: CMDERR is nothing settle looks at, and OP 0 is the word of NOP (R93). -/
theorem nopClearsCmderrOnly : Obligations.NopClearsCmderrOnly := by
  intro s hl hs
  have hnop : exec .nop s = .next { s with cmderr := false } := exec_of_settled_rule hl rfl rfl hs
  exact ⟨hnop, fun w hw => (exec_cmd_word (decodeCommand_nop hw) rfl s).trans hnop⟩

/-- Settles O14: both rows have the one rule, and a word from OP 4 on is always dropped. -/
theorem reservedCommandsSetCmderrOnly : Obligations.ReservedCommandsSetCmderrOnly := by
  intro s hl hs
  exact ⟨fun _ => exec_of_settled_rule hl rfl rfl hs, fun _ => exec_of_settled_rule hl rfl rfl hs,
    fun _ hw => exec_cmd_dropped hl hs (.inr (.inr hw))⟩

end Sys2Proof
end

section
/-! PROOFS. What cannot go wrong (60_exceptions.md): which events have no effect (R233, R74), and why a wait ends whatever
else comes (R253). -/

namespace Sys2Proof

/-! ### What the decoder passes on (R74, R106) -/

section
variable {e : InEvent} {i j : Instr} {r : Reject} {width : Nat} {addr : Addr}

theorem decodeAccess_eq_instr (h : decodeAccess width addr i = .instr j) : wordAligned addr = true ∧ j = i := by
  unfold decodeAccess at h
  split at h
  case isTrue => cases h
  case isFalse =>
    split at h
    case isTrue ha => cases h; exact ⟨ha, rfl⟩
    case isFalse => cases h

theorem decodeAccess_eq_rejected (h : decodeAccess width addr i = .rejected r) : width ≠ 4 ∨ addr.toNat % 4 ≠ 0 := by
  by_contra! hgood
  obtain ⟨rfl, ha⟩ := hgood
  simp [decodeAccess, wordAligned, ha] at h

/-- `exec` refuses no decoded event for its offset: the decoder has tested it. -/
theorem aligned_of_decode (h : decode e = .instr i) : i.aligned = true := by
  cases e with
  | regWrite width addr v =>
    obtain ⟨ha, rfl⟩ := decodeAccess_eq_instr h
    split
    · exact decodeCommand_aligned v
    · exact ha
  | regRead width addr =>
    obtain ⟨ha, rfl⟩ := decodeAccess_eq_instr h
    exact ha
  | reset | rxByte _ | canRx _ _ _ _ _ | tick | txDone _ | initDone _ => cases h; rfl

/-- The decoder rejects register accesses only, for their width or their offset. -/
theorem access_of_decode_rejected (h : decode e = .rejected r) :
    ∃ width addr, (e = .regRead width addr ∨ ∃ v, e = .regWrite width addr v) ∧ (width ≠ 4 ∨ addr.toNat % 4 ≠ 0) := by
  cases e with
  | regWrite width addr v => exact ⟨width, addr, .inr ⟨v, rfl⟩, decodeAccess_eq_rejected h⟩
  | regRead width addr => exact ⟨width, addr, .inl rfl, decodeAccess_eq_rejected h⟩
  | reset | rxByte _ | canRx _ _ _ _ _ | tick | txDone _ | initDone _ => cases h

end

end Sys2Proof

namespace Sys2Proof.Machine

theorem refusalOf_eq (r : Reject) : refusalOf r = .accessWidth ∨ refusalOf r = .misalignedAccess := by
  cases r with
  | accessWidth => exact .inl rfl
  | misaligned => exact .inr rfl

theorem exec_of_aligned {i : Instr} {s : State} (hl : legalParams s.params = true) (ha : i.aligned = true) :
    exec i s = .next (settle (ruleOf i s)) := by
  rw [exec_eq, if_pos hl, if_pos ha]

/-! ### A wait among other events (R180, R182, R253) -/

/-- A legal instance in a wait that NO_DATA ends `n` TICKs from now, unless a frame does before. -/
structure State.WaitsFor (n : Nat) (s : State) : Prop where
  legal : legalParams s.params = true
  waiting : s.state = .waiting
  left : s.tcnt.toNat + n = s.timeout.toNat

/-- The state a wait ends in (R182, R184, R185). -/
def State.WaitEnded (s : State) : Prop :=
  s.state = .idle ∧ (s.cres = .ok ∨ s.cres = .noData ∨ s.cres = .malformedFrame)

section
variable {s : State} {n : Nat}

/-- Settle ends a wait or leaves it, and leaves none that has no time left. -/
theorem State.WaitsFor.settle (h : s.WaitsFor n) : (settle s).WaitEnded ∨ ((settle s).WaitsFor n ∧ 0 < n) := by
  have hleft := h.left
  obtain ⟨hno, -⟩ | ⟨hw, ha, -⟩ | ⟨-, -, -, e⟩ | ⟨-, -, ht, e⟩ := settle_cases s
  · exact absurd h.waiting hno
  · obtain ⟨hidle, hok | hbad⟩ := settle_arrived_answers hw ha
    · exact .inl ⟨hidle, .inl hok⟩
    · exact .inl ⟨hidle, .inr (.inr hbad)⟩
  · rw [e]
    exact .inl ⟨rfl, .inr (.inl rfl)⟩
  · rw [e]
    exact .inr ⟨h, by have := BitVec.lt_def.1 ht; omega⟩

/-- No rule but those of RESET and TICK ends a wait or moves its end: the ones that write STATE, TCNT or TIMEOUT run
outside WAITING. -/
theorem RuleEffect.waitsFor {i : Instr} {u : State} (e : RuleEffect i s u) (hreset : i ≠ .reset) (htick : i ≠ .tick)
    (h : s.WaitsFor n) : u.WaitsFor n := by
  have hbusy : ∀ {st : OrchState}, s.state = st → st = .waiting := fun hst => hst.symm.trans h.waiting
  cases e with
  | reset hi => exact absurd hi hreset
  | tick hi => exact absurd hi htick
  | configure _ _ _ _ _ _ _ _ _ _ _ hidle => cases hbusy hidle
  | init _ _ hidle => cases hbusy hidle
  | fetchUnavailable _ hidle => cases hbusy hidle
  | fetchQuery _ _ hidle => cases hbusy hidle
  | fetchActive _ hidle => cases hbusy hidle
  | sent _ hsend => cases hbusy hsend
  | sendFailed _ hsend => cases hbusy hsend
  | initUp _ hinit => cases hbusy hinit
  | initDown _ hinit => cases hbusy hinit
  | _ => exact ⟨h.legal, h.waiting, h.left⟩

/-- TICK takes one of the TICKs left (R180). -/
theorem State.WaitsFor.tickRule (h : s.WaitsFor (n + 1)) : (tickRule s).WaitsFor n := by
  have hleft := h.left
  have ht : s.tcnt < s.timeout := BitVec.lt_def.2 (by omega)
  have hnat := tcnt_add_one_toNat ht
  rw [tickRule_counts h.waiting ht]
  exact ⟨h.legal, h.waiting, by show (s.tcnt + 1).toNat + n = s.timeout.toNat; omega⟩

/-- A wait with time left ends within as many TICKs as are left: by induction on the events, each of which ends the wait
in its settle or leaves one with as many TICKs left as before, a TICK with one less. -/
theorem State.WaitsFor.ends {is : List Instr} (h : s.WaitsFor n) (hn : 0 < n)
    (hgood : ∀ i ∈ is, i.wellFormed = true ∧ i ≠ .reset) (hcount : n ≤ is.count .tick) :
    ∃ k t, k ≤ is.length ∧ execAll (is.take k) s = .next t ∧ t.WaitEnded := by
  induction is generalizing s n with
  | nil => exact absurd hn (Nat.not_lt.2 hcount)
  | cons i is ih =>
    obtain ⟨hwf, hreset⟩ := hgood i List.mem_cons_self
    have hexec := exec_of_legal h.legal hwf
    obtain ⟨m, hrule, hm⟩ : ∃ m, (ruleOf i s).WaitsFor m ∧ m ≤ is.count .tick := by
      by_cases htick : i = .tick
      · subst htick
        rw [List.count_cons_self] at hcount
        obtain ⟨m, rfl⟩ := Nat.exists_eq_add_one.2 hn
        exact ⟨m, h.tickRule, Nat.le_of_succ_le_succ hcount⟩
      · rw [List.count_cons_of_ne htick] at hcount
        exact ⟨n, (ruleOf_effect i s).waitsFor hreset htick h, hcount⟩
    obtain hend | ⟨hwait, hpos⟩ := hrule.settle
    · exact ⟨1, _, Nat.succ_le_succ (Nat.zero_le _), execAll_cons hexec, hend⟩
    · obtain ⟨k, t, hk, hrun, hend⟩ := ih hwait hpos (fun j hj => hgood j (List.mem_cons_of_mem i hj)) hm
      exact ⟨k + 1, t, Nat.succ_le_succ hk, (execAll_cons hexec).trans hrun, hend⟩

end

end Sys2Proof.Machine
end

section
/-! PROOFS. The obligations of 60_exceptions.md. -/

namespace Sys2Proof

open Machine

/-- Settles O52: in a settled wait some TICKs are left, and the events bring at least as many. -/
theorem waitEndsWithinTimeoutTicksWhateverElseComes : Obligations.WaitEndsWithinTimeoutTicksWhateverElseComes := by
  intro is s hl hw hs hgood hcount
  obtain ⟨-, ht⟩ := hs hw
  have hlt := BitVec.lt_def.1 ht
  have hwait : s.WaitsFor (s.timeout.toNat - s.tcnt.toNat) := ⟨hl, hw, by omega⟩
  exact hwait.ends (by omega) hgood hcount

/-- Settles O10: an event the decoder passes on has an effect, since the decoder has tested the offset and the instance is
legal; the decoder rejects accesses only. -/
theorem everyEventHasAnEffectButRefusedAccesses : Obligations.EveryEventHasAnEffectButRefusedAccesses := by
  intro s e rest hl hin
  cases hd : decode e with
  | instr i =>
    exact .inl ⟨_, (step_of_decode hin hd).trans (exec_of_aligned hl (aligned_of_decode hd))⟩
  | rejected r =>
    obtain ⟨width, addr, haccess, hbad⟩ := access_of_decode_rejected hd
    have hstep := step_of_rejected hin hd
    refine .inr ⟨width, addr, haccess, hbad, ?_⟩
    obtain hr | hr := refusalOf_eq r
    · exact .inl (hr ▸ hstep)
    · exact .inr (hr ▸ hstep)

end Sys2Proof
end

section
/-! PROOFS. RESET (70_reset_and_hazards.md R260), and what no rule writes at all (R263). -/

namespace Sys2Proof.Machine

/-- No rule writes the instance parameters or the events still to come (R263, R20): whatever the effect, they are not among
the elements it updates. -/
theorem RuleEffect.params_inbox_eq {i : Instr} {s u : State} (h : RuleEffect i s u) :
    u.params = s.params ∧ u.inbox = s.inbox := by
  cases h with
  | _ => exact ⟨rfl, rfl⟩

/-- RESET leaves no command in progress, so nothing is left for settle (R260, R183). -/
theorem resetRule_settled (s : State) : (resetRule s).Settled :=
  settled_of_not_waiting (by simp [resetRule])

end Sys2Proof.Machine
end

section
/-! PROOFS. The obligations of 70_reset_and_hazards.md. -/

namespace Sys2Proof

open Machine

/-- Settles O11: a next state is the settled effect of a rule, and neither rules nor settle write the two. -/
theorem parametersAndInboxAreNeverWritten : Obligations.ParametersAndInboxAreNeverWritten := by
  intro i s t h
  obtain ⟨-, u, e, rfl⟩ := exec_effect h
  obtain ⟨-, -, -, -, -, -, -, -, -, -, -, -, -, hparams, hinbox, -⟩ := settle_frame u
  rw [hparams, hinbox]
  exact e.params_inbox_eq

/-- Settles O27: the rule of RESET writes the reset values, and what it makes is already settled. -/
theorem resetWritesEveryElement : Obligations.ResetWritesEveryElement :=
  fun s hl => exec_of_settled_rule hl rfl rfl (resetRule_settled s)

end Sys2Proof
end
